-- ==== Sys2Proof/Word.lean ====
section
/-! DEFINITION. The widths the spec gives its values. -/

namespace Sys2Proof

/-- One byte of BUF (10_state.md R41). -/
abbrev Byte := BitVec 8

/-- A 32-bit host word or command word (20_memory.md R66, 30_encoding.md R90). -/
abbrev Word := BitVec 32

/-- The 127 bits that store one FieldElement (10_state.md R23). The all-ones pattern, the prime itself, is
no canonical value; that no register ever holds it is an invariant (R27), not part of the type. -/
abbrev Fe := BitVec 127

/-- A 256-bit scalar (10_state.md R26). -/
abbrev Scalar := BitVec 256

/-- One lane of the ScalarQuad register, 65 bits two's complement (10_state.md R30). -/
abbrev Lane := BitVec 65

end Sys2Proof
end

