-- ==== Sys2Proof/Syntax.lean ====
section
/-! DEFINITION. The 53 commands of FQC version 1 (30_encoding.md R95), one constructor per row of
spec/opcode_table.json, operands in the field order rd, rs1, rs2, rs3, rs4. -/

namespace Sys2Proof

/-- A field register F0..F7 (10_state.md R23). -/
abbrev FReg := Fin 8
/-- An extension register E0..E7 (10_state.md R24). -/
abbrev EReg := Fin 8
/-- A point register P0..P3 (10_state.md R25). -/
abbrev PReg := Fin 4
/-- A scalar register K0..K3 (10_state.md R26). -/
abbrev KReg := Fin 4

/-- The commands. Registers are typed by their file, so that a field out of range (30_encoding.md R93) is no
instruction; an imm8 out of range (R99) is an ill-formed one (Instr.wf). -/
inductive Instr where
  | nop
  | fadd (d a b : FReg)
  | fsub (d a b : FReg)
  | fmul (d a b : FReg)
  | fsqr (d a : FReg)
  | fneg (d a : FReg)
  | finv (d a : FReg)
  | fisz (a : FReg)
  | feq (a b : FReg)
  | ftob (a : FReg)
  | ffromb (d : FReg)
  | eadd (d a b : EReg)
  | esub (d a b : EReg)
  | emul (d a b : EReg)
  | esqr (d a : EReg)
  | eneg (d a : EReg)
  | einv (d a : EReg)
  | eisz (a : EReg)
  | eeq (a b : EReg)
  | etob (a : EReg)
  | efromb (d : EReg)
  | econj (d a : EReg)
  | epack (d : EReg) (a b : FReg)
  | ere (d : FReg) (a : EReg)
  | eim (d : FReg) (a : EReg)
  | pid (d : PReg)
  | padd (d a b : PReg)
  | pdbl (d a : PReg)
  | pneg (d a : PReg)
  | ponc (a : PReg)
  | paffx (d : EReg) (a : PReg)
  | paffy (d : EReg) (a : PReg)
  | peq (a b : PReg)
  | pseta (d : PReg) (a b : EReg)
  | eonc (a b : EReg)
  | pphi (d a : PReg)
  | ppsi (d a : PReg)
  | pgen (d : PReg)
  | kfromb (d : KReg)
  | ktob (a : KReg)
  | kred (d : KReg)
  | decomp (a : KReg)
  | qtob
  | recode
  | dtob
  | tbuild (a : PReg)
  | trd (d : PReg) (u : BitVec 8)
  | tsel (d : PReg) (i : BitVec 8)
  | smul (d : PReg) (a : KReg) (b : PReg)
  | dsmul (d : PReg) (a : KReg) (b : PReg) (c : KReg) (e : PReg)
  | dsmulg (d : PReg) (a b : KReg) (c : PReg)
  | penc (a : PReg)
  | pdec (d : PReg)
deriving DecidableEq, Repr

end Sys2Proof
end

