-- ==== Sys2Proof/WellFormed.lean ====
section
/-! DEFINITION. Which instructions a legal command word can denote (30_encoding.md R93, R99). -/

namespace Sys2Proof

/-- The range checks that the operand types leave: TRD requires imm8 at most 7 and TSEL at most 64
(30_encoding.md R99). Register ranges (R93) hold by type. -/
def Instr.wf : Instr → Bool
  | .trd _ u => decide (u.toNat ≤ 7)
  | .tsel _ i => decide (i.toNat ≤ 64)
  | .nop | .fadd .. | .fsub .. | .fmul .. | .fsqr .. | .fneg .. | .finv .. | .fisz .. | .feq .. | .ftob .. | .ffromb ..
  | .eadd .. | .esub .. | .emul .. | .esqr .. | .eneg .. | .einv .. | .eisz .. | .eeq .. | .etob .. | .efromb ..
  | .econj .. | .epack .. | .ere .. | .eim ..
  | .pid .. | .padd .. | .pdbl .. | .pneg .. | .ponc .. | .paffx .. | .paffy .. | .peq .. | .pseta .. | .eonc ..
  | .pphi .. | .ppsi .. | .pgen ..
  | .kfromb .. | .ktob .. | .kred .. | .decomp .. | .qtob | .recode | .dtob
  | .tbuild .. | .smul .. | .dsmul .. | .dsmulg .. | .penc .. | .pdec .. => true

end Sys2Proof
end

