-- ==== Sys2Proof/Decode.lean ====
section
/-! DEFINITION. The decoder, total on all 2^32 words and rejecting by name (30_encoding.md R102), and the
encoder (R100). -/

namespace Sys2Proof

/-- Why a word is no legal command: the five checks of 30_encoding.md R102, in its order. Each raises
IllegalCommand (R96); the names are the model's. -/
inductive Illegal where
  /-- Check (1): the opcode is none of the 53. -/
  | unassignedOpcode
  /-- Check (2): bits [3:0] are not 0. -/
  | lowNibble
  /-- Check (3): an unused field is not 0. -/
  | unusedField
  /-- Check (4): a register index is out of its file's range. -/
  | registerRange
  /-- Check (5): imm8 is out of range. -/
  | immediateRange
deriving DecidableEq, Repr

/-- Bits 31:24 (30_encoding.md R91). -/
def opcodeOf (w : Word) : BitVec 8 := w.extractLsb' 24 8
/-- Bits 23:20. -/
def rdOf (w : Word) : BitVec 4 := w.extractLsb' 20 4
/-- Bits 19:16. -/
def rs1Of (w : Word) : BitVec 4 := w.extractLsb' 16 4
/-- Bits 15:12. -/
def rs2Of (w : Word) : BitVec 4 := w.extractLsb' 12 4
/-- Bits 11:8. -/
def rs3Of (w : Word) : BitVec 4 := w.extractLsb' 8 4
/-- Bits 7:4. -/
def rs4Of (w : Word) : BitVec 4 := w.extractLsb' 4 4
/-- Bits 3:0. -/
def lowNibbleOf (w : Word) : BitVec 4 := w.extractLsb' 0 4
/-- Bits 11:4 (30_encoding.md R92, R99). -/
def imm8Of (w : Word) : BitVec 8 := w.extractLsb' 4 8

/-- Checks (2) and (3) of 30_encoding.md R102: the low nibble, then the unused fields. -/
def checkZeros (w : Word) (unused : List (BitVec 4)) : Except Illegal Unit :=
  if lowNibbleOf w ≠ 0 then .error .lowNibble
  else if unused.any (fun f => decide (f ≠ 0)) then .error .unusedField
  else .ok ()

/-- Check (4): a field that names a register of a file of n registers (30_encoding.md R93). -/
def regField (n : Nat) (f : BitVec 4) : Except Illegal (Fin n) :=
  if h : f.toNat < n then .ok ⟨f.toNat, h⟩ else .error .registerRange

/-- Check (5): an immediate of at most m (30_encoding.md R99). -/
def immField (m : Nat) (v : BitVec 8) : Except Illegal (BitVec 8) :=
  if v.toNat ≤ m then .ok v else .error .immediateRange

/-- No field used. -/
def formNone (w : Word) (i : Instr) : Except Illegal Instr := do
  checkZeros w [rdOf w, rs1Of w, rs2Of w, rs3Of w, rs4Of w]
  return i

/-- Field rd used. -/
def formD (nd : Nat) (w : Word) (mk : Fin nd → Instr) : Except Illegal Instr := do
  checkZeros w [rs1Of w, rs2Of w, rs3Of w, rs4Of w]
  return mk (← regField nd (rdOf w))

/-- Field rs1 used. -/
def formA (na : Nat) (w : Word) (mk : Fin na → Instr) : Except Illegal Instr := do
  checkZeros w [rdOf w, rs2Of w, rs3Of w, rs4Of w]
  return mk (← regField na (rs1Of w))

/-- Fields rs1, rs2 used. -/
def formAB (na nb : Nat) (w : Word) (mk : Fin na → Fin nb → Instr) : Except Illegal Instr := do
  checkZeros w [rdOf w, rs3Of w, rs4Of w]
  return mk (← regField na (rs1Of w)) (← regField nb (rs2Of w))

/-- Fields rd, rs1 used. -/
def formDA (nd na : Nat) (w : Word) (mk : Fin nd → Fin na → Instr) : Except Illegal Instr := do
  checkZeros w [rs2Of w, rs3Of w, rs4Of w]
  return mk (← regField nd (rdOf w)) (← regField na (rs1Of w))

/-- Fields rd, rs1, rs2 used. -/
def formDAB (nd na nb : Nat) (w : Word) (mk : Fin nd → Fin na → Fin nb → Instr) : Except Illegal Instr := do
  checkZeros w [rs3Of w, rs4Of w]
  return mk (← regField nd (rdOf w)) (← regField na (rs1Of w)) (← regField nb (rs2Of w))

/-- Fields rd, rs1, rs2, rs3 used. -/
def formDABC (nd na nb nc : Nat) (w : Word) (mk : Fin nd → Fin na → Fin nb → Fin nc → Instr) :
    Except Illegal Instr := do
  checkZeros w [rs4Of w]
  return mk (← regField nd (rdOf w)) (← regField na (rs1Of w)) (← regField nb (rs2Of w)) (← regField nc (rs3Of w))

/-- All five fields used. -/
def formDABCE (nd na nb nc ne : Nat) (w : Word) (mk : Fin nd → Fin na → Fin nb → Fin nc → Fin ne → Instr) :
    Except Illegal Instr := do
  checkZeros w []
  return mk (← regField nd (rdOf w)) (← regField na (rs1Of w)) (← regField nb (rs2Of w)) (← regField nc (rs3Of w))
    (← regField ne (rs4Of w))

/-- Format I: rd and imm8, bits [19:12] zero (30_encoding.md R92). -/
def formI (nd m : Nat) (w : Word) (mk : Fin nd → BitVec 8 → Instr) : Except Illegal Instr := do
  checkZeros w [rs1Of w, rs2Of w]
  return mk (← regField nd (rdOf w)) (← immField m (imm8Of w))

/-- The decoder: the opcode map of 30_encoding.md R95 with the checks of R102 in their order. -/
def decode (w : Word) : Except Illegal Instr :=
  match (opcodeOf w).toNat with
  | 0x00 => formNone w .nop
  | 0x10 => formDAB 8 8 8 w .fadd
  | 0x11 => formDAB 8 8 8 w .fsub
  | 0x12 => formDAB 8 8 8 w .fmul
  | 0x13 => formDA 8 8 w .fsqr
  | 0x14 => formDA 8 8 w .fneg
  | 0x15 => formDA 8 8 w .finv
  | 0x16 => formA 8 w .fisz
  | 0x17 => formAB 8 8 w .feq
  | 0x18 => formA 8 w .ftob
  | 0x19 => formD 8 w .ffromb
  | 0x20 => formDAB 8 8 8 w .eadd
  | 0x21 => formDAB 8 8 8 w .esub
  | 0x22 => formDAB 8 8 8 w .emul
  | 0x23 => formDA 8 8 w .esqr
  | 0x24 => formDA 8 8 w .eneg
  | 0x25 => formDA 8 8 w .einv
  | 0x26 => formA 8 w .eisz
  | 0x27 => formAB 8 8 w .eeq
  | 0x28 => formA 8 w .etob
  | 0x29 => formD 8 w .efromb
  | 0x2A => formDA 8 8 w .econj
  | 0x2B => formDAB 8 8 8 w .epack
  | 0x2C => formDA 8 8 w .ere
  | 0x2D => formDA 8 8 w .eim
  | 0x30 => formD 4 w .pid
  | 0x31 => formDAB 4 4 4 w .padd
  | 0x32 => formDA 4 4 w .pdbl
  | 0x33 => formDA 4 4 w .pneg
  | 0x34 => formA 4 w .ponc
  | 0x35 => formDA 8 4 w .paffx
  | 0x36 => formDA 8 4 w .paffy
  | 0x37 => formAB 4 4 w .peq
  | 0x38 => formDAB 4 8 8 w .pseta
  | 0x39 => formAB 8 8 w .eonc
  | 0x3A => formDA 4 4 w .pphi
  | 0x3B => formDA 4 4 w .ppsi
  | 0x3C => formD 4 w .pgen
  | 0x40 => formD 4 w .kfromb
  | 0x41 => formA 4 w .ktob
  | 0x42 => formD 4 w .kred
  | 0x43 => formA 4 w .decomp
  | 0x44 => formNone w .qtob
  | 0x45 => formNone w .recode
  | 0x46 => formNone w .dtob
  | 0x50 => formA 4 w .tbuild
  | 0x51 => formI 4 7 w .trd
  | 0x52 => formI 4 64 w .tsel
  | 0x53 => formDAB 4 4 4 w .smul
  | 0x54 => formDABCE 4 4 4 4 4 w .dsmul
  | 0x55 => formDABC 4 4 4 4 w .dsmulg
  | 0x60 => formA 4 w .penc
  | 0x61 => formD 4 w .pdec
  | _ => .error .unassignedOpcode

/-- A format R word from its fields: opcode*2^24 + rd*2^20 + rs1*2^16 + rs2*2^12 + rs3*2^8 + rs4*2^4
(30_encoding.md R100). -/
def packR (op rd rs1 rs2 rs3 rs4 : Nat) : Word :=
  BitVec.ofNat 32 (0x1000000 * op + 0x100000 * rd + 0x10000 * rs1 + 0x1000 * rs2 + 0x100 * rs3 + 0x10 * rs4)

/-- A format I word: opcode*2^24 + rd*2^20 + imm8*2^4 (30_encoding.md R100). -/
def packI (op rd imm : Nat) : Word :=
  BitVec.ofNat 32 (0x1000000 * op + 0x100000 * rd + 0x10 * imm)

/-- The word of an instruction (30_encoding.md R95, R100). -/
def encode : Instr → Word
  | .nop => packR 0x00 0 0 0 0 0
  | .fadd d a b => packR 0x10 d a b 0 0
  | .fsub d a b => packR 0x11 d a b 0 0
  | .fmul d a b => packR 0x12 d a b 0 0
  | .fsqr d a => packR 0x13 d a 0 0 0
  | .fneg d a => packR 0x14 d a 0 0 0
  | .finv d a => packR 0x15 d a 0 0 0
  | .fisz a => packR 0x16 0 a 0 0 0
  | .feq a b => packR 0x17 0 a b 0 0
  | .ftob a => packR 0x18 0 a 0 0 0
  | .ffromb d => packR 0x19 d 0 0 0 0
  | .eadd d a b => packR 0x20 d a b 0 0
  | .esub d a b => packR 0x21 d a b 0 0
  | .emul d a b => packR 0x22 d a b 0 0
  | .esqr d a => packR 0x23 d a 0 0 0
  | .eneg d a => packR 0x24 d a 0 0 0
  | .einv d a => packR 0x25 d a 0 0 0
  | .eisz a => packR 0x26 0 a 0 0 0
  | .eeq a b => packR 0x27 0 a b 0 0
  | .etob a => packR 0x28 0 a 0 0 0
  | .efromb d => packR 0x29 d 0 0 0 0
  | .econj d a => packR 0x2A d a 0 0 0
  | .epack d a b => packR 0x2B d a b 0 0
  | .ere d a => packR 0x2C d a 0 0 0
  | .eim d a => packR 0x2D d a 0 0 0
  | .pid d => packR 0x30 d 0 0 0 0
  | .padd d a b => packR 0x31 d a b 0 0
  | .pdbl d a => packR 0x32 d a 0 0 0
  | .pneg d a => packR 0x33 d a 0 0 0
  | .ponc a => packR 0x34 0 a 0 0 0
  | .paffx d a => packR 0x35 d a 0 0 0
  | .paffy d a => packR 0x36 d a 0 0 0
  | .peq a b => packR 0x37 0 a b 0 0
  | .pseta d a b => packR 0x38 d a b 0 0
  | .eonc a b => packR 0x39 0 a b 0 0
  | .pphi d a => packR 0x3A d a 0 0 0
  | .ppsi d a => packR 0x3B d a 0 0 0
  | .pgen d => packR 0x3C d 0 0 0 0
  | .kfromb d => packR 0x40 d 0 0 0 0
  | .ktob a => packR 0x41 0 a 0 0 0
  | .kred d => packR 0x42 d 0 0 0 0
  | .decomp a => packR 0x43 0 a 0 0 0
  | .qtob => packR 0x44 0 0 0 0 0
  | .recode => packR 0x45 0 0 0 0 0
  | .dtob => packR 0x46 0 0 0 0 0
  | .tbuild a => packR 0x50 0 a 0 0 0
  | .trd d u => packI 0x51 d u.toNat
  | .tsel d i => packI 0x52 d i.toNat
  | .smul d a b => packR 0x53 d a b 0 0
  | .dsmul d a b c e => packR 0x54 d a b c e
  | .dsmulg d a b c => packR 0x55 d a b c 0
  | .penc a => packR 0x60 0 a 0 0 0
  | .pdec d => packR 0x61 d 0 0 0 0

/-- The instruction the decoder reads from the command word whose bits are w (a command is one 32-bit word,
30_encoding.md R90, written to CMD whole; bits from nbits on are 0). -/
def decodeTableWord (nbits w : Nat) : Option Instr :=
  (decode (BitVec.ofNat 32 (w % 2 ^ nbits))).toOption

end Sys2Proof
end

