-- ==== Sys2Proof/Config.lean ====
section
/-! DEFINITION. What is fixed for every FQCORE, and the free values. The candidate values of the curve
parameters stand in Machine/Params.lean, not here (log entry 1). -/

namespace Sys2Proof.Config

/-- The prime p = 2^127 - 1 (00_scope.md R7). -/
def prime : Nat := 2 ^ 127 - 1

/-- BUFSZ, the bytes of BUF (00_scope.md R14, 10_state.md R41). -/
def bufSize : Nat := 128

/-- FREE VALUE: the word a read of an unspecified location returns while BUSY = 1, a fresh arbitrary word per
read (70_reset_and_hazards.md R328); applied to State.freeCount, which every such read advances (log entry 4). -/
opaque busyRead : Nat → Word

/-- FREE VALUE: digit i (sign, index) of the recoding of a quad that has a negative lane or an even a1. 44_scalar.md
R199 is stated for neither (91_not_in_source.md N18), and no run puts such a quad in Q with QV = 1 (log entry 8). -/
opaque undefinedDigit : Lane → Lane → Lane → Lane → Nat → Bool × Fin 8

end Sys2Proof.Config
end

