-- ==== Sys2Proof/Machine/State.lean ====
section
/-! DEFINITION. The state of FQCORE as plain data (10_state.md R21), the outcomes of a step, and reset. -/

namespace Sys2Proof.Machine

/-- An element a + b*i of GF(p^2): re = a, im = b (10_state.md R24). -/
structure Fe2 where
  re : Fe
  im : Fe
deriving DecidableEq, Repr

/-- A curve point in extended projective coordinates (10_state.md R25). -/
structure Point where
  X : Fe2
  Y : Fe2
  Z : Fe2
  T : Fe2
deriving DecidableEq, Repr

/-- The ScalarQuad register Q, four signed lanes (10_state.md R30). -/
structure Quad where
  a1 : Lane
  a2 : Lane
  a3 : Lane
  a4 : Lane
deriving DecidableEq, Repr

/-- One digit of DIG: a sign (true means negative) and a table index (10_state.md R31). -/
structure Digit where
  neg : Bool
  index : Fin 8
deriving DecidableEq, Repr

/-- BUF as the list of its non-zero bytes, addresses strictly rising; an unlisted byte reads 0x00, the reset
contents (10_state.md R41, R44). -/
abbrev Memory := List Host.Cell

/-- The canonical form of BUF: addresses strictly rising and below 128, no listed byte 0x00. -/
def Memory.wf : Memory → Bool
  | [] => true
  | [(a, b)] => decide (a < Config.bufSize) && decide (b ≠ 0)
  | (a, b) :: (a', b') :: rest => decide (a < a') && decide (b ≠ 0) && Memory.wf ((a', b') :: rest)

/-- What the outside does to the core: the two host primitives (20_memory.md R66) and the external reset input
(70_reset_and_hazards.md R320). addr is a byte offset. -/
inductive HostAccess where
  | read (addr : Nat)
  | write (addr : Nat) (w : Word)
  | reset
deriving DecidableEq, Repr

/-- One access the host will make. overlaps says that it is made before a command that is executing completes;
an access with overlaps = false waits for BUSY = 0, as a host that keeps 70_reset_and_hazards.md R326 does (log
entry 3). -/
structure HostEvent where
  access : HostAccess
  overlaps : Bool
deriving DecidableEq, Repr

/-- The state: every element of 10_state.md R21, then the model's own fields (log entries 2, 4, 5). -/
structure State where
  /-- F[0..7] (R23). -/
  f : Vector Fe 8
  /-- E[0..7] (R24). -/
  e : Vector Fe2 8
  /-- P[0..3] (R25). -/
  p : Vector Point 4
  /-- K[0..3] (R26). -/
  k : Vector Scalar 4
  /-- Q (R30). -/
  q : Quad
  /-- DIG[0..64] (R31). -/
  dig : Vector Digit 65
  /-- T[0..7] (R32). -/
  t : Vector Point 8
  /-- BUF[0..127] (R41). -/
  buf : Memory
  /-- BLEN[7:0] (R38). -/
  blen : BitVec 8
  /-- FLAG (R33). -/
  flag : Bool
  /-- HALT (R36, 60_exceptions.md R286). -/
  halt : Bool
  /-- OVR (R36). -/
  ovr : Bool
  /-- GTV (R36, R43). -/
  gtv : Bool
  /-- QV (R36). -/
  qv : Bool
  /-- DV (R36). -/
  dv : Bool
  /-- TV (R36). -/
  tv : Bool
  /-- BUSY (R36, R40): none is BUSY = 0; some w is BUSY = 1 while the command word w executes. -/
  running : Option Word
  /-- RESULT[7:0] (R35). -/
  result : BitVec 8
  /-- ERRCMD (R37). -/
  errcmd : Word
  /-- The model's own: the host's accesses to come, oldest first (log entry 2). -/
  inbox : List HostEvent
  /-- The model's own: the word the latest HostRead returned (log entry 5). -/
  readData : Word
  /-- The model's own: how many unspecified reads have happened (log entry 4). -/
  freeCount : Nat
deriving DecidableEq, Repr

/-- BUSY as a bit (10_state.md R40). -/
def State.busy (s : State) : Bool := s.running.isSome

/-- Why a step stops. No command stops the machine: every error is a RESULT code (60_exceptions.md R280). -/
inductive Fault where
  /-- Raised by a host access at an offset that the host port's map does not have, 0x100 or above: the map of
  0x00..0xFC is complete (20_memory.md R66, R67). Safe: the access is none the spec gives an effect. -/
  | hostAddressOutside (addr : Nat)
deriving DecidableEq, Repr

/-- Why a step gives no meaning. -/
inductive Refusal where
  /-- Raised by no command of this model (every command has its meaning). Safe. -/
  | notModelled (mnemonic : String)
  /-- Raised by a host access at an offset that is not a multiple of 4: the host port must refuse it before it
  reaches the core (20_memory.md R69, 93_implementation_defined.md I8). Safe. -/
  | hostAddressMisaligned (addr : Nat)
deriving DecidableEq, Repr

/-- The neutral element O = (0, 1, 1, 0) (43_curvepoint.md R162, 10_state.md R44). -/
def Point.neutral : Point := ⟨⟨0, 0⟩, ⟨1, 0⟩, ⟨1, 0⟩, ⟨0, 0⟩⟩

/-- The state after reset (10_state.md R44); the last three fields are the model's own (log entries 2, 4, 5). -/
def State.reset : State where
  f := Vector.replicate 8 0
  e := Vector.replicate 8 ⟨0, 0⟩
  p := Vector.replicate 4 Point.neutral
  k := Vector.replicate 4 0
  q := ⟨0, 0, 0, 0⟩
  dig := Vector.replicate 65 ⟨false, 0⟩
  t := Vector.replicate 8 Point.neutral
  buf := []
  blen := 0
  flag := false
  halt := false
  ovr := false
  gtv := false
  qv := false
  dv := false
  tv := false
  running := none
  result := 0
  errcmd := 0
  inbox := []
  readData := 0
  freeCount := 0

end Sys2Proof.Machine
end

