-- ==== Sys2Proof/Machine/Ops.lean ====
section
/-! DEFINITION. The named operations over memory and registers, the two ways a command ends, and reset. -/

namespace Sys2Proof.Machine

/-! Memory (00_scope.md section 5, 10_state.md R41). -/

/-- The byte at address a. -/
def Memory.read : Memory → Nat → Byte
  | [], _ => 0
  | (k, c) :: rest, a => if k = a then c else Memory.read rest a

/-- Put the byte b at address a into a list with rising addresses, replacing an entry for a. -/
def Memory.insert : Memory → Nat → Byte → Memory
  | [], a, b => [(a, b)]
  | (k, c) :: rest, a, b =>
    if a < k then (a, b) :: (k, c) :: rest
    else if a = k then (a, b) :: rest
    else (k, c) :: Memory.insert rest a b

/-- Write the byte b at address a, keeping the canonical form: a byte 0x00 is not listed. -/
def Memory.write (m : Memory) (a : Nat) (b : Byte) : Memory :=
  if b = 0 then m.filter (fun c => decide (c.1 ≠ a)) else Memory.insert m a b

/-- MemRead(addr, n): little-endian (00_scope.md section 5). -/
def Memory.readLE (m : Memory) (a : Nat) : Nat → Nat
  | 0 => 0
  | n + 1 => (Memory.read m a).toNat + 256 * Memory.readLE m (a + 1) n

/-- MemWrite(addr, n, v): little-endian (00_scope.md section 5). -/
def Memory.writeLE (m : Memory) (a : Nat) : Nat → Nat → Memory
  | 0, _ => m
  | n + 1, v => Memory.writeLE (Memory.write m a (BitVec.ofNat 8 v)) (a + 1) n (v / 256)

/-! Registers (10_state.md R23 to R26). No register is hard-wired. -/

/-- F[r]. -/
def State.rdF (s : State) (r : FReg) : Fe := s.f[r]
/-- E[r]. -/
def State.rdE (s : State) (r : EReg) : Fe2 := s.e[r]
/-- P[r]. -/
def State.rdP (s : State) (r : PReg) : Point := s.p[r]
/-- K[r]. -/
def State.rdK (s : State) (r : KReg) : Scalar := s.k[r]
/-- T[u]. -/
def State.rdT (s : State) (u : Fin 8) : Point := s.t[u]

/-- F[r] <- v. -/
def State.wrF (s : State) (r : FReg) (v : Fe) : State := { s with f := s.f.set r v }
/-- E[r] <- v. -/
def State.wrE (s : State) (r : EReg) (v : Fe2) : State := { s with e := s.e.set r v }
/-- P[r] <- v. -/
def State.wrP (s : State) (r : PReg) (v : Point) : State := { s with p := s.p.set r v }
/-- K[r] <- v. -/
def State.wrK (s : State) (r : KReg) (v : Scalar) : State := { s with k := s.k.set r v }

/-- Q <- v and QV <- 1 (44_scalar.md R194). -/
def State.wrQ (s : State) (v : Quad) : State := { s with q := v, qv := true }
/-- DIG <- v and DV <- 1 (44_scalar.md R198). -/
def State.wrDig (s : State) (v : Vector Digit 65) : State := { s with dig := v, dv := true }
/-- T <- v and TV <- 1 (45_multiplier.md R221). -/
def State.wrT (s : State) (v : Vector Point 8) : State := { s with t := v, tv := true }

/-! How a command ends (60_exceptions.md R280). -/

/-- The error codes of 60_exceptions.md R281. -/
inductive ErrorCode where
  | invalidFieldEncoding
  | pointNotOnCurve
  | invalidEncodingLength
  | zeroInversion
  | illegalCommand
  | notReady
  | exceptionalPoint
deriving DecidableEq, Repr

/-- The value of RESULT[7:0] for an error (60_exceptions.md R281). -/
def ErrorCode.code : ErrorCode → BitVec 8
  | .invalidFieldEncoding => 1
  | .pointNotOnCurve => 2
  | .invalidEncodingLength => 3
  | .zeroInversion => 4
  | .illegalCommand => 5
  | .notReady => 6
  | .exceptionalPoint => 7

/-- Success: RESULT <- 0 and BUSY <- 0, ERRCMD unchanged (60_exceptions.md R280, 10_state.md R36). -/
def State.complete (s : State) : State := { s with result := 0, running := none }

/-- TAKING AN ERROR, the one entry the spec has (60_exceptions.md R283, R288): RESULT <- its code, ERRCMD <- the
command word, HALT <- 1 for ZeroInversion (R286), BUSY <- 0, and nothing else. There is no return from it: the
host's next command, or after ZeroInversion a reset, is what resumes (R288). -/
def State.raise (s : State) (c : ErrorCode) (w : Word) : State :=
  { s with result := c.code, errcmd := w, halt := s.halt || decide (c = .zeroInversion), running := none }

/-- The outcome of a command that made all its writes and is left in s. -/
def succeed (s : State) : Host.Outcome State Fault Refusal := .next s.complete

/-- The outcome of the command i that raises c in s. The command word is encode i: a legal word has exactly
one reading (30_encoding.md R97). -/
def fail (i : Instr) (c : ErrorCode) (s : State) : Host.Outcome State Fault Refusal := .next (s.raise c (encode i))

/-- The reset of 70_reset_and_hazards.md R320, the same for both its causes: every element of the architectural
state at its reset value. The model's own fields go on: the host's accesses still to come, what it last read, and
the count of unspecified reads (log entry 2). -/
def State.doReset (s : State) : State :=
  { State.reset with inbox := s.inbox, readData := s.readData, freeCount := s.freeCount }

end Sys2Proof.Machine
end

