-- ==== Sys2Proof/Machine/Flags.lean ====
section
/-! DEFINITION. FLAG, and the STATUS word that shows it (10_state.md R33, R36). FQC has no other flag. -/

namespace Sys2Proof.Machine

/-- A predicate command's result: FLAG <- 1 for true, 0 for false (10_state.md R33). -/
def State.setFlag (s : State) (b : Bool) : State := { s with flag := b }

/-- STATUS while BUSY = 0 and its bits while BUSY = 1: BUSY + 2*FLAG + 4*HALT + 8*OVR + 16*GTV + 32*QV + 64*DV +
128*TV, bits 31:8 zero (10_state.md R36, 47_system.md R272). -/
def statusWord (s : State) : Word :=
  BitVec.ofNat 32 (s.busy.toNat + 2 * s.flag.toNat + 4 * s.halt.toNat + 8 * s.ovr.toNat + 16 * s.gtv.toNat
    + 32 * s.qv.toNat + 64 * s.dv.toNat + 128 * s.tv.toNat)

end Sys2Proof.Machine
end

