-- ==== Sys2Proof/Machine/Operands.lean ====
section
/-! DEFINITION. The byte formats that cross the boundary through BUF (20_memory.md R60 to R65, R78): how a command
writes a byte string and its length, and how it reads one. -/

namespace Sys2Proof.Machine

/-- A command that writes an n-byte string, the little-endian bytes of v: BUF[0..n-1] and BLEN <- n
(20_memory.md R78). -/
def State.putString (s : State) (n v : Nat) : State :=
  { s with buf := Memory.writeLE s.buf 0 n v, blen := BitVec.ofNat 8 n }

/-- A string length as BLEN holds it, the only use a command makes of BLEN (10_state.md R38). -/
def State.lengthIs (s : State) (n : Nat) : Bool := decide (s.blen.toNat = n)

/-- MemRead(off, n). -/
def State.getString (s : State) (off n : Nat) : Nat := Memory.readLE s.buf off n

/-- The 16-byte value of a FieldElement (20_memory.md R60). -/
def feBytes (a : Fe) : Nat := a.toNat

/-- The 32-byte value of an ExtensionElement: re, then im (20_memory.md R61). -/
def fe2Bytes (u : Fe2) : Nat := u.re.toNat + 2 ^ 128 * u.im.toNat

/-- One lane of a ScalarQuad as a 128-bit two's-complement value, a_j mod 2^128 (20_memory.md R64). -/
def laneBytes (a : Lane) : Nat := (a.signExtend 128).toNat

/-- The 64-byte value of a ScalarQuad: lane j at offset 16(j-1) (20_memory.md R64). -/
def quadBytes (q : Quad) : Nat :=
  laneBytes q.a1 + 2 ^ 128 * laneBytes q.a2 + 2 ^ 256 * laneBytes q.a3 + 2 ^ 384 * laneBytes q.a4

/-- The byte of one digit, sign * 128 + index (20_memory.md R65). -/
def digitByte (d : Digit) : Nat := (if d.neg then 128 else 0) + d.index.val

/-- The value whose little-endian bytes are the digits of a list, digit 0 first. -/
def digitsBytes : List Digit → Nat
  | [] => 0
  | d :: rest => digitByte d + 256 * digitsBytes rest

end Sys2Proof.Machine
end

