-- ==== Sys2Proof/Machine/PrimeField.lean ====
section
/-! DEFINITION. The PrimeField unit: the reducer modulo p = 2^127 - 1 and the F commands (41_primefield.md). -/

namespace Sys2Proof.Machine

open Sys2Proof.Config (prime)

/-! Arithmetic in GF(p) (00_scope.md section 5). -/

/-- The modular reducer, step by step (41_primefield.md R120). -/
def red (z : Nat) : Nat :=
  let lo := z &&& prime
  let hi := z >>> 127
  let r := lo + hi
  let r := (r &&& prime) + (r >>> 127)
  if r = prime then 0 else r

/-- fadd(a, b) = (a + b) mod p. -/
def fadd (a b : Fe) : Fe := BitVec.ofNat 127 ((a.toNat + b.toNat) % prime)

/-- fsub(a, b) = (a - b) mod p. -/
def fsub (a b : Fe) : Fe := BitVec.ofNat 127 ((a.toNat + (prime - b.toNat)) % prime)

/-- fmul(a, b), by the reducer (41_primefield.md R123). -/
def fmul (a b : Fe) : Fe := BitVec.ofNat 127 (red (a.toNat * b.toNat))

/-- fneg(a) = (p - a) mod p. -/
def fneg (a : Fe) : Fe := BitVec.ofNat 127 ((prime - a.toNat) % prime)

/-- a^n by square and multiply, for n < 2^bits: the fixed chain of a public exponent. -/
def powBy {α : Type} (mul : α → α → α) (one a : α) : (bits : Nat) → (n : Nat) → α
  | 0, _ => one
  | bits + 1, n =>
    let h := powBy mul one a bits (n / 2)
    let hh := mul h h
    if n % 2 = 1 then mul a hh else hh

/-- finv(a) = a^(p-2) mod p (41_primefield.md R126); the chain is not architectural. -/
def finv (a : Fe) : Fe := powBy fmul 1 a 127 (prime - 2)

/-! The F commands. Sources are read from the state before, destinations written after (10_state.md R45). -/

/-- FADD Fd, Fa, Fb (41_primefield.md R121). -/
def execFadd (d a b : FReg) (s : State) : Host.Outcome State Fault Refusal :=
  succeed (s.wrF d (fadd (s.rdF a) (s.rdF b)))

/-- FSUB Fd, Fa, Fb (41_primefield.md R122). -/
def execFsub (d a b : FReg) (s : State) : Host.Outcome State Fault Refusal :=
  succeed (s.wrF d (fsub (s.rdF a) (s.rdF b)))

/-- FMUL Fd, Fa, Fb (41_primefield.md R123). -/
def execFmul (d a b : FReg) (s : State) : Host.Outcome State Fault Refusal :=
  succeed (s.wrF d (fmul (s.rdF a) (s.rdF b)))

/-- FSQR Fd, Fa (41_primefield.md R124). -/
def execFsqr (d a : FReg) (s : State) : Host.Outcome State Fault Refusal :=
  succeed (s.wrF d (fmul (s.rdF a) (s.rdF a)))

/-- FNEG Fd, Fa (41_primefield.md R125). -/
def execFneg (d a : FReg) (s : State) : Host.Outcome State Fault Refusal :=
  succeed (s.wrF d (fneg (s.rdF a)))

/-- FINV Fd, Fa (41_primefield.md R126): ZeroInversion on 0. -/
def execFinv (d a : FReg) (s : State) : Host.Outcome State Fault Refusal :=
  if s.rdF a = 0 then fail (.finv d a) .zeroInversion s
  else succeed (s.wrF d (finv (s.rdF a)))

/-- FISZ Fa (41_primefield.md R127). -/
def execFisz (a : FReg) (s : State) : Host.Outcome State Fault Refusal :=
  succeed (s.setFlag (decide (s.rdF a = 0)))

/-- FEQ Fa, Fb (41_primefield.md R128). -/
def execFeq (a b : FReg) (s : State) : Host.Outcome State Fault Refusal :=
  succeed (s.setFlag (decide (s.rdF a = s.rdF b)))

/-- FTOB Fa (41_primefield.md R129). -/
def execFtob (a : FReg) (s : State) : Host.Outcome State Fault Refusal :=
  succeed (s.putString 16 (feBytes (s.rdF a)))

/-- FFROMB Fd (41_primefield.md R130): InvalidEncodingLength, then InvalidFieldEncoding. -/
def execFfromb (d : FReg) (s : State) : Host.Outcome State Fault Refusal :=
  if s.lengthIs 16 = false then fail (.ffromb d) .invalidEncodingLength s
  else if prime ≤ s.getString 0 16 then fail (.ffromb d) .invalidFieldEncoding s
  else succeed (s.wrF d (BitVec.ofNat 127 (s.getString 0 16)))

end Sys2Proof.Machine
end

