-- ==== Sys2Proof/Machine/ExtField.lean ====
section
/-! DEFINITION. The ExtensionField unit: GF(p^2) = GF(p)[i]/(i^2 + 1) and the E commands (42_extfield.md). -/

namespace Sys2Proof.Machine

open Sys2Proof.Config (prime)

/-! Arithmetic in GF(p^2) (42_extfield.md R140). -/

/-- u + v. -/
def eadd (u v : Fe2) : Fe2 := ⟨fadd u.re v.re, fadd u.im v.im⟩
/-- u - v. -/
def esub (u v : Fe2) : Fe2 := ⟨fsub u.re v.re, fsub u.im v.im⟩
/-- -u. -/
def eneg (u : Fe2) : Fe2 := ⟨fneg u.re, fneg u.im⟩
/-- u * v = (ac - be) + (ae + bc)i. -/
def emul (u v : Fe2) : Fe2 :=
  ⟨fsub (fmul u.re v.re) (fmul u.im v.im), fadd (fmul u.re v.im) (fmul u.im v.re)⟩
/-- u^2 = u * u. -/
def esq (u : Fe2) : Fe2 := emul u u
/-- conj(u) = (re, -im). -/
def econj (u : Fe2) : Fe2 := ⟨u.re, fneg u.im⟩
/-- norm(u) = a^2 + b^2, in GF(p). -/
def enorm (u : Fe2) : Fe := fadd (fmul u.re u.re) (fmul u.im u.im)
/-- The zero (0, 0). -/
def ezero : Fe2 := ⟨0, 0⟩
/-- The one (1, 0). -/
def eone : Fe2 := ⟨1, 0⟩
/-- inv(u) for u other than zero, by the norm (42_extfield.md R146). -/
def einv (u : Fe2) : Fe2 :=
  let ni := finv (enorm u)
  ⟨fmul u.re ni, fneg (fmul u.im ni)⟩

/-- u^n in GF(p^2), for n < 2^127. -/
def epow (u : Fe2) (n : Nat) : Fe2 := powBy emul eone u 127 n

/-- The product with three GF(p) multiplications (42_extfield.md R143). -/
def emulKaratsuba (u v : Fe2) : Fe2 :=
  let t0 := fmul u.re v.re
  let t1 := fmul u.im v.im
  let t2 := fmul (fadd u.re u.im) (fadd v.re v.im)
  ⟨fsub t0 t1, fsub (fsub t2 t0) t1⟩

/-- The square with two GF(p) multiplications (42_extfield.md R144). -/
def esqrTwo (u : Fe2) : Fe2 :=
  ⟨fmul (fadd u.re u.im) (fsub u.re u.im), fmul (fadd u.re u.re) u.im⟩

/-! The E commands. -/

/-- EADD Ed, Ea, Eb (42_extfield.md R141). -/
def execEadd (d a b : EReg) (s : State) : Host.Outcome State Fault Refusal :=
  succeed (s.wrE d (eadd (s.rdE a) (s.rdE b)))

/-- ESUB Ed, Ea, Eb (42_extfield.md R142). -/
def execEsub (d a b : EReg) (s : State) : Host.Outcome State Fault Refusal :=
  succeed (s.wrE d (esub (s.rdE a) (s.rdE b)))

/-- EMUL Ed, Ea, Eb (42_extfield.md R143). -/
def execEmul (d a b : EReg) (s : State) : Host.Outcome State Fault Refusal :=
  succeed (s.wrE d (emulKaratsuba (s.rdE a) (s.rdE b)))

/-- ESQR Ed, Ea (42_extfield.md R144). -/
def execEsqr (d a : EReg) (s : State) : Host.Outcome State Fault Refusal :=
  succeed (s.wrE d (esqrTwo (s.rdE a)))

/-- ENEG Ed, Ea (42_extfield.md R145). -/
def execEneg (d a : EReg) (s : State) : Host.Outcome State Fault Refusal :=
  succeed (s.wrE d (eneg (s.rdE a)))

/-- EINV Ed, Ea (42_extfield.md R146): ZeroInversion on (0, 0). -/
def execEinv (d a : EReg) (s : State) : Host.Outcome State Fault Refusal :=
  if s.rdE a = ezero then fail (.einv d a) .zeroInversion s
  else succeed (s.wrE d (einv (s.rdE a)))

/-- EISZ Ea (42_extfield.md R148). -/
def execEisz (a : EReg) (s : State) : Host.Outcome State Fault Refusal :=
  succeed (s.setFlag (decide (s.rdE a = ezero)))

/-- EEQ Ea, Eb (42_extfield.md R149). -/
def execEeq (a b : EReg) (s : State) : Host.Outcome State Fault Refusal :=
  succeed (s.setFlag (decide (s.rdE a = s.rdE b)))

/-- ETOB Ea (42_extfield.md R150). -/
def execEtob (a : EReg) (s : State) : Host.Outcome State Fault Refusal :=
  succeed (s.putString 32 (fe2Bytes (s.rdE a)))

/-- EFROMB Ed (42_extfield.md R151): InvalidEncodingLength, then InvalidFieldEncoding; all 128 bits of each
component are checked. -/
def execEfromb (d : EReg) (s : State) : Host.Outcome State Fault Refusal :=
  if s.lengthIs 32 = false then fail (.efromb d) .invalidEncodingLength s
  else if prime ≤ s.getString 0 16 ∨ prime ≤ s.getString 16 16 then fail (.efromb d) .invalidFieldEncoding s
  else succeed (s.wrE d ⟨BitVec.ofNat 127 (s.getString 0 16), BitVec.ofNat 127 (s.getString 16 16)⟩)

/-- ECONJ Ed, Ea (42_extfield.md R147). -/
def execEconj (d a : EReg) (s : State) : Host.Outcome State Fault Refusal :=
  succeed (s.wrE d (econj (s.rdE a)))

/-- EPACK Ed, Fa, Fb (42_extfield.md R152). -/
def execEpack (d : EReg) (a b : FReg) (s : State) : Host.Outcome State Fault Refusal :=
  succeed (s.wrE d ⟨s.rdF a, s.rdF b⟩)

/-- ERE Fd, Ea (42_extfield.md R153). -/
def execEre (d : FReg) (a : EReg) (s : State) : Host.Outcome State Fault Refusal :=
  succeed (s.wrF d (s.rdE a).re)

/-- EIM Fd, Ea (42_extfield.md R154). -/
def execEim (d : FReg) (a : EReg) (s : State) : Host.Outcome State Fault Refusal :=
  succeed (s.wrF d (s.rdE a).im)

end Sys2Proof.Machine
end

