-- ==== Sys2Proof/Machine/Params.lean ====
section
/-! DEFINITION. The curve parameters, each at the spec's candidate value (00_scope.md R8 to R13; log entry 1).
They stand in this folder so that a later repair can mend them. -/

namespace Sys2Proof.Machine

/-- CURVE_D (00_scope.md R8). -/
def curveD : Fe2 := ⟨0x00000000000000E40000000000000142, 0x5E472F846657E0FCB3821488F1FC0C8D⟩

/-- ORDER_N (00_scope.md R9). -/
def orderN : Nat := 0x0029CBC14E5E0A72F05397829CBC14E5DFBD004DFE0F79992FB2540EC7768CE7

/-- The x of GEN (00_scope.md R10). -/
def genX : Fe2 := ⟨0x1A3472237C2FB305286592AD7B3833AA, 0x1E1F553F2878AA9C96869FB360AC77F6⟩

/-- The y of GEN (00_scope.md R10). -/
def genY : Fe2 := ⟨0x0E3FEE9BA120785AB924A2462BCBB287, 0x6E1C4AF8630E024249A7C344844C8B5C⟩

/-- LAMBDA_PHI (00_scope.md R11): PHI acts on <G> as this multiplier. No command reads it. -/
def lambdaPhi : Nat := 0x0006D9069DC876C883C18F03C13D737624874F0B5E4DAA9BCDF0E63CE8997864

/-- LAMBDA_PSI (00_scope.md R11). No command reads it. -/
def lambdaPsi : Nat := 0x0018C475353519268C4C2510AB53B51ECB3688CA09EF0E885DC7F2B7CDFD2A88

/-! The constants of PHI and PSI (43_curvepoint.md R175). -/

def cTau1 : Fe2 := ⟨0x1964DE2C3AFAD20C74DCD57CEBCE74C3, 0x000000000000000C0000000000000012⟩
def cTauDual1 : Fe2 := ⟨0x4AA740EB230586529ECAA6D9DECDF034, 0x7FFFFFFFFFFFFFF40000000000000011⟩
def cPhi0 : Fe2 := ⟨0x0000000000000005FFFFFFFFFFFFFFF7, 0x2553A0759182C3294F65536CEF66F81A⟩
def cPhi1 : Fe2 := ⟨0x00000000000000050000000000000007, 0x62C8CAA0C50C62CF334D90E9E28296F9⟩
def cPhi2 : Fe2 := ⟨0x000000000000000F0000000000000015, 0x78DF262B6C9B5C982C2CB7154F1DF391⟩
def cPhi3 : Fe2 := ⟨0x00000000000000020000000000000003, 0x5084C6491D76342A92440457A7962EA4⟩
def cPhi4 : Fe2 := ⟨0x00000000000000030000000000000003, 0x12440457A7962EA4A1098C923AEC6855⟩
def cPhi5 : Fe2 := ⟨0x000000000000000A000000000000000F, 0x459195418A18C59E669B21D3C5052DF3⟩
def cPhi6 : Fe2 := ⟨0x00000000000000120000000000000018, 0x0B232A8314318B3CCD3643A78A0A5BE7⟩
def cPhi7 : Fe2 := ⟨0x00000000000000180000000000000023, 0x3963BC1C99E2EA1A66C183035F48781A⟩
def cPhi8 : Fe2 := ⟨0x00000000000000AA00000000000000F0, 0x1F529F860316CBE544E251582B5D0EF0⟩
def cPhi9 : Fe2 := ⟨0x00000000000008700000000000000BEF, 0x0FD52E9CFE00375B014D3E48976E2505⟩
def cPsi1 : Fe2 := ⟨0x2AF99E9A83D54A02EDF07F4767E346EF, 0x00000000000000DE000000000000013A⟩
def cPsi2 : Fe2 := ⟨0x00000000000000E40000000000000143, 0x21B8D07B99A81F034C7DEB770E03F372⟩
def cPsi3 : Fe2 := ⟨0x00000000000000060000000000000009, 0x4CB26F161D7D69063A6E6ABE75E73A61⟩
def cPsi4 : Fe2 := ⟨0x7FFFFFFFFFFFFFF9FFFFFFFFFFFFFFF6, 0x334D90E9E28296F9C59195418A18C59E⟩

/-! The lattice basis, its approximations and the correction vector (44_scalar.md R196). -/

/-- A vector of four integers. -/
structure Int4 where
  x1 : Int
  x2 : Int
  x3 : Int
  x4 : Int
deriving DecidableEq, Repr

def basis1 : Int4 := ⟨650487742939046294, -1397215820276968864, 523086274270593807, -598824378691085905⟩
def basis2 : Int4 := ⟨2110318963211420372, -1, 1, 2727991412926801872⟩
def basis3 : Int4 := ⟨1705647224544756482, 199320682881407569, -3336360048424633503, 765171327772315031⟩
def basis4 : Int4 := ⟨1400113754146392127, 3540637644719456050, -471270406870313397, -1789345740969872106⟩
/-- CVEC's c; its c' is c + b4. -/
def correction : Int4 := ⟨8234880650715616668, 6483313240794689388, 9066539331533273720, 7765751599377320055⟩

def ell1 : Nat := 0x7FC5BB5C5EA2BE5DFF75682ACE6A6BD66259686E09D1A7D4E
def ell2 : Nat := 0x38FD4B04CAA6C0F8A2BD235580F468D8DD1BA1D84DD627AFB
def ell3 : Nat := 0xD038BF8D0BFFBAF6C42BD6C965DCA9029B291A33678C203C
def ell4 : Nat := 0x31B073877A22D841081CBDC3714983D8212E5666B77E7FDBF

/-- XSIGN (00_scope.md R13, the candidate of 46_codec.md R251): bit 126 of the first non-zero component, re
first. -/
def xsign (x : Fe2) : Bool := if x.re ≠ 0 then x.re.msb else x.im.msb

end Sys2Proof.Machine
end

