-- ==== Sys2Proof/Machine/Endo.lean ====
section
/-! DEFINITION. The endomorphisms PHI and PSI at their candidate instance (43_curvepoint.md R173 to R175). A name
of the spec's pseudocode that is overwritten carries a number here. -/

namespace Sys2Proof.Machine

/-- A projective point without T, as the four maps take and give it (43_curvepoint.md R175). -/
structure Proj where
  X : Fe2
  Y : Fe2
  Z : Fe2
deriving DecidableEq, Repr

/-- tau (43_curvepoint.md R175). -/
def tau (P : Proj) : Proj :=
  let t0 := esq P.X
  let t1 := esq P.Y
  let X := emul P.X P.Y
  let Y := esq P.Z
  let Z := eadd t0 t1
  let t0' := esub t1 t0
  let Y := eadd Y Y
  let X := emul X t0'
  let Y := esub Y t0'
  let X := emul X cTau1
  let Y := emul Y Z
  let Z := emul Z t0'
  ⟨X, Y, Z⟩

/-- tau_dual, which also gives T (43_curvepoint.md R175). -/
def tauDual (P : Proj) : Point :=
  let t0 := esq P.X
  let Ta := esq P.Z
  let t1 := esq P.Y
  let Z := eadd Ta Ta
  let Ta := esub t1 t0
  let t0' := eadd t0 t1
  let X := emul P.X P.Y
  let Z := esub Z Ta
  let Tb := emul X cTauDual1
  let Y := emul Z Ta
  let X := emul Tb t0'
  let Z := emul Z t0'
  ⟨X, Y, Z, emul Ta Tb⟩

/-- delphidel (43_curvepoint.md R175). -/
def delphidel (P : Proj) : Proj :=
  let t4 := esq P.Z
  let t3 := emul P.Y P.Z
  let t0 := emul t4 cPhi4
  let t2 := esq P.Y
  let t0 := eadd t0 t2
  let t1 := emul t3 cPhi3
  let t5 := esub t0 t1
  let t0 := eadd t0 t1
  let t0 := emul t0 P.Z
  let t1 := emul t3 cPhi1
  let t0 := emul t0 t5
  let t5 := emul t4 cPhi2
  let t5 := eadd t2 t5
  let t6 := esub t1 t5
  let t1 := eadd t1 t5
  let t6 := emul t6 t1
  let t6 := emul t6 cPhi0
  let X := emul P.X t6
  let t6 := esq t2
  let t2 := esq t3
  let t3 := esq t4
  let t1 := emul t2 cPhi8
  let t5 := emul t3 cPhi9
  let t1 := eadd t1 t6
  let t2 := emul t2 cPhi6
  let t3 := emul t3 cPhi7
  let t1 := eadd t1 t5
  let t2 := eadd t2 t3
  let t1 := emul t1 P.Y
  let Y := eadd t6 t2
  let X := emul X t1
  let Y := emul Y cPhi5
  let X := econj X
  let Y := emul Y P.Z
  let Z := emul t0 t1
  let Y := emul Y t0
  let Z := econj Z
  let Y := econj Y
  ⟨X, Y, Z⟩

/-- delpsidel (43_curvepoint.md R175). -/
def delpsidel (P : Proj) : Proj :=
  let X := econj P.X
  let Z := econj P.Z
  let Y := econj P.Y
  let t2 := esq Z
  let t0 := esq X
  let X := emul X t2
  let Z := emul t2 cPsi2
  let t1 := emul t2 cPsi3
  let t2 := emul t2 cPsi4
  let Z := eadd t0 Z
  let t2 := eadd t0 t2
  let t1 := eadd t0 t1
  let t2 := eneg t2
  let Z := emul Z Y
  let X := emul X t2
  let Y := emul t1 Z
  let X := emul X cPsi1
  let Z := emul Z t2
  ⟨X, Y, Z⟩

/-- PHI(P) = tau_dual(delphidel(tau(P))) (43_curvepoint.md R173). -/
def phi (P : Point) : Point := tauDual (delphidel (tau ⟨P.X, P.Y, P.Z⟩))

/-- PSI(P) = tau_dual(delpsidel(tau(P))) (43_curvepoint.md R174). -/
def psi (P : Point) : Point := tauDual (delpsidel (tau ⟨P.X, P.Y, P.Z⟩))

/-- PHI with the test of 43_curvepoint.md R176: none where the formulas give Z = (0, 0). -/
def phiChecked (P : Point) : Option Point := if (phi P).Z = ezero then none else some (phi P)

/-- PSI with the test of 43_curvepoint.md R176. -/
def psiChecked (P : Point) : Option Point := if (psi P).Z = ezero then none else some (psi P)

end Sys2Proof.Machine
end

