-- ==== Sys2Proof/Machine/Curve.lean ====
section
/-! DEFINITION. The CurvePoint unit: the twisted Edwards point adder and the P commands (43_curvepoint.md). -/

namespace Sys2Proof.Machine

/-! The group law on tuples. -/

/-- 2*u means u + u (43_curvepoint.md, opening). -/
def edouble (u : Fe2) : Fe2 := eadd u u

/-- The unified addition (43_curvepoint.md R163). -/
def padd (P Q : Point) : Point :=
  let A := emul (esub P.Y P.X) (esub Q.Y Q.X)
  let B := emul (eadd P.Y P.X) (eadd Q.Y Q.X)
  let C := emul (emul P.T (edouble curveD)) Q.T
  let D := emul (edouble P.Z) Q.Z
  let E := esub B A
  let F := esub D C
  let G := eadd D C
  let H := eadd B A
  ⟨emul E F, emul G H, emul F G, emul E H⟩

/-- The doubling (43_curvepoint.md R164). -/
def pdbl (P : Point) : Point :=
  let A := esq P.X
  let B := esq P.Y
  let C := edouble (esq P.Z)
  let D := eneg A
  let E := esub (esub (esq (eadd P.X P.Y)) A) B
  let G := eadd D B
  let F := esub G C
  let H := esub D B
  ⟨emul E F, emul G H, emul F G, emul E H⟩

/-- The negative (43_curvepoint.md R165). -/
def pneg (P : Point) : Point := ⟨eneg P.X, P.Y, P.Z, eneg P.T⟩

/-- A valid curve point: Z != 0, X*Y = Z*T and -X^2 + Y^2 = Z^2 + d*T^2 (10_state.md R28, 43_curvepoint.md R166). -/
def pvalid (P : Point) : Bool :=
  decide (P.Z ≠ ezero) && decide (emul P.X P.Y = emul P.Z P.T)
    && decide (eadd (eneg (esq P.X)) (esq P.Y) = eadd (esq P.Z) (emul curveD (esq P.T)))

/-- An affine pair on the curve: -x^2 + y^2 = 1 + d*x^2*y^2 (43_curvepoint.md R170, R171). -/
def affineOnCurve (x y : Fe2) : Bool :=
  decide (eadd (eneg (esq x)) (esq y) = eadd eone (emul (emul curveD (esq x)) (esq y)))

/-- The tuple (x, y, 1, x*y) of an affine pair (43_curvepoint.md R170). -/
def ofAffine (x y : Fe2) : Point := ⟨x, y, eone, emul x y⟩

/-- X/Z (43_curvepoint.md R167). -/
def affineX (P : Point) : Fe2 := emul P.X (einv P.Z)

/-- Y/Z (43_curvepoint.md R168). -/
def affineY (P : Point) : Fe2 := emul P.Y (einv P.Z)

/-- P ~ Q: X1*Z2 = X2*Z1 and Y1*Z2 = Y2*Z1 (43_curvepoint.md R169). -/
def sameAffine (P Q : Point) : Bool :=
  decide (emul P.X Q.Z = emul Q.X P.Z) && decide (emul P.Y Q.Z = emul Q.Y P.Z)

/-- The generator's tuple (43_curvepoint.md R172). -/
def generator : Point := ofAffine genX genY

/-! The P commands. -/

/-- PID Pd (43_curvepoint.md R162). -/
def execPid (d : PReg) (s : State) : Host.Outcome State Fault Refusal :=
  succeed (s.wrP d Point.neutral)

/-- PADD Pd, Pa, Pb (43_curvepoint.md R163). -/
def execPadd (d a b : PReg) (s : State) : Host.Outcome State Fault Refusal :=
  succeed (s.wrP d (padd (s.rdP a) (s.rdP b)))

/-- PDBL Pd, Pa (43_curvepoint.md R164). -/
def execPdbl (d a : PReg) (s : State) : Host.Outcome State Fault Refusal :=
  succeed (s.wrP d (pdbl (s.rdP a)))

/-- PNEG Pd, Pa (43_curvepoint.md R165). -/
def execPneg (d a : PReg) (s : State) : Host.Outcome State Fault Refusal :=
  succeed (s.wrP d (pneg (s.rdP a)))

/-- PONC Pa (43_curvepoint.md R166). -/
def execPonc (a : PReg) (s : State) : Host.Outcome State Fault Refusal :=
  succeed (s.setFlag (pvalid (s.rdP a)))

/-- PAFFX Ed, Pa (43_curvepoint.md R167): ZeroInversion on Z = (0, 0). -/
def execPaffx (d : EReg) (a : PReg) (s : State) : Host.Outcome State Fault Refusal :=
  if (s.rdP a).Z = ezero then fail (.paffx d a) .zeroInversion s
  else succeed (s.wrE d (affineX (s.rdP a)))

/-- PAFFY Ed, Pa (43_curvepoint.md R168): ZeroInversion on Z = (0, 0). -/
def execPaffy (d : EReg) (a : PReg) (s : State) : Host.Outcome State Fault Refusal :=
  if (s.rdP a).Z = ezero then fail (.paffy d a) .zeroInversion s
  else succeed (s.wrE d (affineY (s.rdP a)))

/-- PEQ Pa, Pb (43_curvepoint.md R169). -/
def execPeq (a b : PReg) (s : State) : Host.Outcome State Fault Refusal :=
  succeed (s.setFlag (sameAffine (s.rdP a) (s.rdP b)))

/-- PSETA Pd, Ea, Eb (43_curvepoint.md R170): PointNotOnCurve off the curve. -/
def execPseta (d : PReg) (a b : EReg) (s : State) : Host.Outcome State Fault Refusal :=
  if affineOnCurve (s.rdE a) (s.rdE b) = false then fail (.pseta d a b) .pointNotOnCurve s
  else succeed (s.wrP d (ofAffine (s.rdE a) (s.rdE b)))

/-- EONC Ea, Eb (43_curvepoint.md R171). -/
def execEonc (a b : EReg) (s : State) : Host.Outcome State Fault Refusal :=
  succeed (s.setFlag (affineOnCurve (s.rdE a) (s.rdE b)))

/-- PPHI Pd, Pa (43_curvepoint.md R173): ExceptionalPoint where the formulas give Z = (0, 0). -/
def execPphi (d a : PReg) (s : State) : Host.Outcome State Fault Refusal :=
  (phiChecked (s.rdP a)).elim (fail (.pphi d a) .exceptionalPoint s) fun R => succeed (s.wrP d R)

/-- PPSI Pd, Pa (43_curvepoint.md R174): ExceptionalPoint where the formulas give Z = (0, 0). -/
def execPpsi (d a : PReg) (s : State) : Host.Outcome State Fault Refusal :=
  (psiChecked (s.rdP a)).elim (fail (.ppsi d a) .exceptionalPoint s) fun R => succeed (s.wrP d R)

/-- PGEN Pd (43_curvepoint.md R172). -/
def execPgen (d : PReg) (s : State) : Host.Outcome State Fault Refusal :=
  succeed (s.wrP d generator)

end Sys2Proof.Machine
end

