-- ==== Sys2Proof/Machine/Codec.lean ====
section
/-! DEFINITION. The PointCodec unit: square roots, point compression and decompression (46_codec.md). -/

namespace Sys2Proof.Machine

open Sys2Proof.Config (prime)

/-- A square root of w in GF(p^2), none where w is no square: the candidate of 46_codec.md R252 (log entry 9). -/
def esqrt (w : Fe2) : Option Fe2 :=
  let a1 := epow w ((prime - 3) / 4)
  let alpha := emul a1 (emul a1 w)
  let a0 := emul (econj alpha) alpha
  let minusOne := eneg eone
  if a0 = minusOne then none
  else
    let x0 := emul a1 w
    if alpha = minusOne then some (emul ⟨0, 1⟩ x0)
    else some (emul (epow (eadd eone alpha) ((prime - 1) / 2)) x0)

/-- The root of w with XSIGN = sign: 0 for w = 0 and sign 0, else the one of r, -r (46_codec.md R254). none covers
both 'no square' and 'x = 0 with sign bit 1'. -/
def rootWithSign (w : Fe2) (sign : Bool) : Option Fe2 :=
  if w = ezero then (if sign then none else some ezero)
  else (esqrt w).map (fun r => if xsign r = sign then r else eneg r)

/-- The 32-byte value of an encoded point: y.re + 2^128 * y.im + 2^255 * XSIGN(x) (46_codec.md R250). -/
def encodedPoint (x y : Fe2) : Nat := y.re.toNat + 2 ^ 128 * y.im.toNat + 2 ^ 255 * (xsign x).toNat

/-- From y and a sign, the affine point, or none for PointNotOnCurve (46_codec.md R254 from u on). -/
def decompress (y : Fe2) (sign : Bool) : Option Point :=
  let u := esub (esq y) eone
  let v := eadd (emul curveD (esq y)) eone
  if v = ezero then none
  else
    (rootWithSign (emul u (einv v)) sign).bind fun x => if affineOnCurve x y then some (ofAffine x y) else none

/-- PENC Pa (46_codec.md R253): ZeroInversion on Z = (0, 0). -/
def execPenc (a : PReg) (s : State) : Host.Outcome State Fault Refusal :=
  if (s.rdP a).Z = ezero then fail (.penc a) .zeroInversion s
  else succeed (s.putString 32 (encodedPoint (affineX (s.rdP a)) (affineY (s.rdP a))))

/-- PDEC Pd (46_codec.md R254): InvalidEncodingLength, then InvalidFieldEncoding, then PointNotOnCurve. -/
def execPdec (d : PReg) (s : State) : Host.Outcome State Fault Refusal :=
  let sign := (Memory.read s.buf 31).msb
  let yr := s.getString 0 16
  let yi := s.getString 16 16 % 2 ^ 127
  if s.lengthIs 32 = false then fail (.pdec d) .invalidEncodingLength s
  else if prime ≤ yr ∨ prime ≤ yi then fail (.pdec d) .invalidFieldEncoding s
  else
    (decompress ⟨BitVec.ofNat 127 yr, BitVec.ofNat 127 yi⟩ sign).elim (fail (.pdec d) .pointNotOnCurve s) fun P =>
      succeed (s.wrP d P)

end Sys2Proof.Machine
end

