-- ==== Sys2Proof/Machine/Scalar.lean ====
section
/-! DEFINITION. The ScalarDecomposition unit: the four-scalar decomposer, the digit recoder and the K commands
(44_scalar.md). -/

namespace Sys2Proof.Machine

/-! Decomposition. -/

/-- v - n*b in Z^4. -/
def Int4.subMul (v : Int4) (n : Nat) (b : Int4) : Int4 :=
  ⟨v.x1 - b.x1 * n, v.x2 - b.x2 * n, v.x3 - b.x3 * n, v.x4 - b.x4 * n⟩

/-- v + b in Z^4. -/
def Int4.add (v b : Int4) : Int4 := ⟨v.x1 + b.x1, v.x2 + b.x2, v.x3 + b.x3, v.x4 + b.x4⟩

/-- alpha_j = floor(l_j * k / 2^256) (44_scalar.md R195). -/
def alpha (l k : Nat) : Nat := l * k / 2 ^ 256

/-- decompose(k), the four integers of 44_scalar.md R195. -/
def decomposeInt (k : Nat) : Int4 :=
  let a := (((((⟨k, 0, 0, 0⟩ : Int4).subMul (alpha ell1 k) basis1).subMul (alpha ell2 k) basis2).subMul
    (alpha ell3 k) basis3).subMul (alpha ell4 k) basis4).add correction
  if a.x1 % 2 = 0 then a.add basis4 else a

/-- The lanes of Q: each integer in 65 bits two's complement (10_state.md R30). -/
def Int4.toQuad (v : Int4) : Quad :=
  ⟨BitVec.ofInt 65 v.x1, BitVec.ofInt 65 v.x2, BitVec.ofInt 65 v.x3, BitVec.ofInt 65 v.x4⟩

/-- decompose(k) as DECOMP puts it in Q (44_scalar.md R194). -/
def decompose (k : Scalar) : Quad := (decomposeInt k.toNat).toQuad

/-! Recoding. -/

/-- index = u2 + 2*u3 + 4*u4; the three-bit field keeps it modulo 8, and it is below 8 whenever the u are bits. -/
def digitIndex (u2 u3 u4 : Nat) : Fin 8 := Fin.ofNat 8 (u2 + 2 * u3 + 4 * u4)

/-- What a lane's remainder becomes after its low bit is taken: a digit of value -1 borrows from the next position
(44_scalar.md R199). -/
def laneNext (r : Nat) (neg : Bool) : Nat := r / 2 + (if neg then r % 2 else 0)

/-- The digits from position i on, n of them before the top one, least significant first (44_scalar.md R199). -/
def recodeFrom (a1 : Nat) : (n i r2 r3 r4 : Nat) → List Digit
  | 0, _, r2, r3, r4 => [⟨false, digitIndex r2 r3 r4⟩]
  | n + 1, i, r2, r3, r4 =>
    let neg := decide ((a1 >>> (i + 1)) % 2 = 0)
    ⟨neg, digitIndex (r2 % 2) (r3 % 2) (r4 % 2)⟩
      :: recodeFrom a1 n (i + 1) (laneNext r2 neg) (laneNext r3 neg) (laneNext r4 neg)

/-- n digits and the top one. -/
theorem recodeFrom_length (a1 n i r2 r3 r4 : Nat) : (recodeFrom a1 n i r2 r3 r4).length = n + 1 := by
  induction n generalizing i r2 r3 r4 with
  | zero => rfl
  | succ n ih => simp [recodeFrom, ih]

/-- recode for non-negative lanes: 65 digits, digit i of weight 2^i (44_scalar.md R199). -/
def recodeDigits (a1 a2 a3 a4 : Nat) : Vector Digit 65 :=
  ⟨(recodeFrom a1 64 0 a2 a3 a4).toArray, by simp [recodeFrom_length]⟩

/-- Every lane non-negative (in 65 bits: below 2^64). -/
def Quad.nonneg (q : Quad) : Bool := !q.a1.msb && !q.a2.msb && !q.a3.msb && !q.a4.msb

/-- The domain of 44_scalar.md R199: every lane in [0, 2^64), a1 odd. -/
def Quad.recodable (q : Quad) : Bool := q.nonneg && q.a1.getLsbD 0

/-- A digit of the recoding of a quad outside R199's domain: a free value (log entry 8). -/
def undefinedDigit (q : Quad) (i : Nat) : Digit :=
  ⟨(Config.undefinedDigit q.a1 q.a2 q.a3 q.a4 i).1, (Config.undefinedDigit q.a1 q.a2 q.a3 q.a4 i).2⟩

/-- recode(Q) (44_scalar.md R198, R199). -/
def recode (q : Quad) : Vector Digit 65 :=
  if q.recodable then recodeDigits q.a1.toNat q.a2.toNat q.a3.toNat q.a4.toNat
  else Vector.ofFn (fun i : Fin 65 => undefinedDigit q i.val)

/-! The K, Q and DIG commands. -/

/-- KFROMB Kd (44_scalar.md R190). -/
def execKfromb (d : KReg) (s : State) : Host.Outcome State Fault Refusal :=
  if s.lengthIs 32 = false then fail (.kfromb d) .invalidEncodingLength s
  else succeed (s.wrK d (BitVec.ofNat 256 (s.getString 0 32)))

/-- KTOB Ka (44_scalar.md R191). -/
def execKtob (a : KReg) (s : State) : Host.Outcome State Fault Refusal :=
  succeed (s.putString 32 (s.rdK a).toNat)

/-- KRED Kd (44_scalar.md R193): 32 or 64 bytes modulo ORDER_N. -/
def execKred (d : KReg) (s : State) : Host.Outcome State Fault Refusal :=
  if s.lengthIs 32 = false ∧ s.lengthIs 64 = false then fail (.kred d) .invalidEncodingLength s
  else succeed (s.wrK d (BitVec.ofNat 256 (s.getString 0 s.blen.toNat % orderN)))

/-- DECOMP Ka (44_scalar.md R194): DIG, DV, T and TV unchanged. -/
def execDecomp (a : KReg) (s : State) : Host.Outcome State Fault Refusal :=
  succeed (s.wrQ (decompose (s.rdK a)))

/-- QTOB (44_scalar.md R197): NotReady while QV = 0. -/
def execQtob (s : State) : Host.Outcome State Fault Refusal :=
  if s.qv = false then fail .qtob .notReady s
  else succeed (s.putString 64 (quadBytes s.q))

/-- RECODE (44_scalar.md R198): NotReady while QV = 0. -/
def execRecode (s : State) : Host.Outcome State Fault Refusal :=
  if s.qv = false then fail .recode .notReady s
  else succeed (s.wrDig (recode s.q))

/-- DTOB (44_scalar.md R200): NotReady while DV = 0. -/
def execDtob (s : State) : Host.Outcome State Fault Refusal :=
  if s.dv = false then fail .dtob .notReady s
  else succeed (s.putString 65 (digitsBytes s.dig.toList))

end Sys2Proof.Machine
end

