-- ==== Sys2Proof/Machine/Multiplier.lean ====
section
/-! DEFINITION. The ScalarMultiplier unit: the table builder, the table selector and the multiplication commands
(45_multiplier.md). -/

namespace Sys2Proof.Machine

/-- The eight entries from P, PHI(P), PSI(P) and PSI(PHI(P)) (45_multiplier.md R220). -/
def tableEntries (P Pf Ps Psf : Point) : Vector Point 8 :=
  let T1 := padd P Pf
  let T2 := padd P Ps
  let T3 := padd T1 Ps
  let T4 := padd P Psf
  let T5 := padd T1 Psf
  let T6 := padd T2 Psf
  let T7 := padd T3 Psf
  #v[P, T1, T2, T3, T4, T5, T6, T7]

/-- table(P); none is ExceptionalPoint (45_multiplier.md R220). PSI(PHI(P)) applies PHI first (43_curvepoint.md
R178). -/
def buildTable (P : Point) : Option (Vector Point 8) :=
  (phiChecked P).bind fun Pf => (psiChecked P).bind fun Ps => (psiChecked Pf).map fun Psf => tableEntries P Pf Ps Psf

/-- sel(T, v) = T[v], negated where the digit's sign says so (45_multiplier.md R223, R224). -/
def select (tb : Vector Point 8) (d : Digit) : Point :=
  if d.neg then pneg tb[d.index] else tb[d.index]

/-- One turn of the loop: double, then add the selected entry (45_multiplier.md R225). -/
def loopStep (tb : Vector Point 8) (A : Point) (d : Digit) : Point := padd (pdbl A) (select tb d)

/-- The loop of 45_multiplier.md R225: from the entry of the top digit, which is never negated, for the digits 63 down
to 0. -/
def mulLoop (tb : Vector Point 8) (dg : Vector Digit 65) : Point :=
  (dg.toList.take 64).reverse.foldl (loopStep tb) tb[dg[64].index]

/-- What smulval leaves: the product and the side registers' values (45_multiplier.md R225). -/
structure Product where
  A : Point
  q : Quad
  dig : Vector Digit 65
  t : Vector Point 8
deriving DecidableEq, Repr

/-- smulval(k, P); none is ExceptionalPoint (45_multiplier.md R225). -/
def smulval (k : Scalar) (P : Point) : Option Product :=
  (buildTable P).map fun tb =>
    { A := mulLoop tb (recode (decompose k)), q := decompose k, dig := recode (decompose k), t := tb }

/-- [n]P by double-and-add over the bits of n < 2^bits (00_scope.md section 5). -/
def multiple (P : Point) : (bits : Nat) → (n : Nat) → Point
  | 0, _ => Point.neutral
  | bits + 1, n =>
    let h := pdbl (multiple P bits (n / 2))
    if n % 2 = 1 then padd h P else h

/-- [k mod N]G, the first product of DSMULG (45_multiplier.md R228; log entry 7). -/
def generatorMultiple (k : Scalar) : Point := multiple generator 256 (k.toNat % orderN)

/-- The writes a multiplication makes: P[d], Q, DIG, T and their valid bits (45_multiplier.md R226, R227). -/
def State.wrProduct (s : State) (d : PReg) (A : Point) (r : Product) : State :=
  (((s.wrP d A).wrQ r.q).wrDig r.dig).wrT r.t

/-- GTV <- 1 (10_state.md R43). -/
def State.setGtv (s : State) : State := { s with gtv := true }

/-- TBUILD Pa (45_multiplier.md R221). -/
def execTbuild (a : PReg) (s : State) : Host.Outcome State Fault Refusal :=
  (buildTable (s.rdP a)).elim (fail (.tbuild a) .exceptionalPoint s) fun tb => succeed (s.wrT tb)

/-- TRD Pd, u (45_multiplier.md R222): NotReady while TV = 0. An imm8 above 7 is no legal command
(30_encoding.md R99, R96; log entry 12). -/
def execTrd (d : PReg) (u : BitVec 8) (s : State) : Host.Outcome State Fault Refusal :=
  if h : u.toNat < 8 then
    if s.tv = false then fail (.trd d u) .notReady s
    else succeed (s.wrP d (s.rdT ⟨u.toNat, h⟩))
  else fail (.trd d u) .illegalCommand s

/-- TSEL Pd, i (45_multiplier.md R223): NotReady while TV = 0 or DV = 0. An imm8 above 64 is no legal command
(30_encoding.md R99, R96; log entry 12). -/
def execTsel (d : PReg) (i : BitVec 8) (s : State) : Host.Outcome State Fault Refusal :=
  if h : i.toNat < 65 then
    if s.tv = false ∨ s.dv = false then fail (.tsel d i) .notReady s
    else succeed (s.wrP d (select s.t (s.dig[i.toNat]'h)))
  else fail (.tsel d i) .illegalCommand s

/-- SMUL Pd, Ka, Pb (45_multiplier.md R226). -/
def execSmul (d : PReg) (a : KReg) (b : PReg) (s : State) : Host.Outcome State Fault Refusal :=
  (smulval (s.rdK a) (s.rdP b)).elim (fail (.smul d a b) .exceptionalPoint s) fun r =>
    succeed (s.wrProduct d r.A r)

/-- DSMUL Pd, Ka, Pb, Kc, Pe (45_multiplier.md R227): the side registers hold the second product's values. -/
def execDsmul (d : PReg) (a : KReg) (b : PReg) (c : KReg) (e : PReg) (s : State) :
    Host.Outcome State Fault Refusal :=
  (smulval (s.rdK a) (s.rdP b)).elim (fail (.dsmul d a b c e) .exceptionalPoint s) fun r1 =>
    (smulval (s.rdK c) (s.rdP e)).elim (fail (.dsmul d a b c e) .exceptionalPoint s) fun r2 =>
      succeed (s.wrProduct d (padd r1.A r2.A) r2)

/-- DSMULG Pd, Ka, Kb, Pc (45_multiplier.md R228): also GTV <- 1. -/
def execDsmulg (d : PReg) (a b : KReg) (c : PReg) (s : State) : Host.Outcome State Fault Refusal :=
  (smulval (s.rdK b) (s.rdP c)).elim (fail (.dsmulg d a b c) .exceptionalPoint s) fun r =>
    succeed (s.wrProduct d (padd (generatorMultiple (s.rdK a)) r.A) r).setGtv

end Sys2Proof.Machine
end

