-- ==== Sys2Proof/Machine/System.lean ====
section
/-! DEFINITION. The system command (47_system.md). -/

namespace Sys2Proof.Machine

/-- NOP (47_system.md R270): RESULT <- 0, nothing else. -/
def execNop (s : State) : Host.Outcome State Fault Refusal := succeed s

end Sys2Proof.Machine
end

