-- ==== Sys2Proof/Machine/Dispatch.lean ====
section
/-! DEFINITION. The dispatch: one arm per command, each one direct call of its meaning. -/

namespace Sys2Proof.Machine

/-- The effect of a legal command on the state it executes in (10_state.md R20). -/
def exec (i : Instr) (s : State) : Host.Outcome State Fault Refusal :=
  match i with
  | .nop => Sys2Proof.Machine.execNop s
  | .fadd d a b => Sys2Proof.Machine.execFadd d a b s
  | .fsub d a b => Sys2Proof.Machine.execFsub d a b s
  | .fmul d a b => Sys2Proof.Machine.execFmul d a b s
  | .fsqr d a => Sys2Proof.Machine.execFsqr d a s
  | .fneg d a => Sys2Proof.Machine.execFneg d a s
  | .finv d a => Sys2Proof.Machine.execFinv d a s
  | .fisz a => Sys2Proof.Machine.execFisz a s
  | .feq a b => Sys2Proof.Machine.execFeq a b s
  | .ftob a => Sys2Proof.Machine.execFtob a s
  | .ffromb d => Sys2Proof.Machine.execFfromb d s
  | .eadd d a b => Sys2Proof.Machine.execEadd d a b s
  | .esub d a b => Sys2Proof.Machine.execEsub d a b s
  | .emul d a b => Sys2Proof.Machine.execEmul d a b s
  | .esqr d a => Sys2Proof.Machine.execEsqr d a s
  | .eneg d a => Sys2Proof.Machine.execEneg d a s
  | .einv d a => Sys2Proof.Machine.execEinv d a s
  | .eisz a => Sys2Proof.Machine.execEisz a s
  | .eeq a b => Sys2Proof.Machine.execEeq a b s
  | .etob a => Sys2Proof.Machine.execEtob a s
  | .efromb d => Sys2Proof.Machine.execEfromb d s
  | .econj d a => Sys2Proof.Machine.execEconj d a s
  | .epack d a b => Sys2Proof.Machine.execEpack d a b s
  | .ere d a => Sys2Proof.Machine.execEre d a s
  | .eim d a => Sys2Proof.Machine.execEim d a s
  | .pid d => Sys2Proof.Machine.execPid d s
  | .padd d a b => Sys2Proof.Machine.execPadd d a b s
  | .pdbl d a => Sys2Proof.Machine.execPdbl d a s
  | .pneg d a => Sys2Proof.Machine.execPneg d a s
  | .ponc a => Sys2Proof.Machine.execPonc a s
  | .paffx d a => Sys2Proof.Machine.execPaffx d a s
  | .paffy d a => Sys2Proof.Machine.execPaffy d a s
  | .peq a b => Sys2Proof.Machine.execPeq a b s
  | .pseta d a b => Sys2Proof.Machine.execPseta d a b s
  | .eonc a b => Sys2Proof.Machine.execEonc a b s
  | .pphi d a => Sys2Proof.Machine.execPphi d a s
  | .ppsi d a => Sys2Proof.Machine.execPpsi d a s
  | .pgen d => Sys2Proof.Machine.execPgen d s
  | .kfromb d => Sys2Proof.Machine.execKfromb d s
  | .ktob a => Sys2Proof.Machine.execKtob a s
  | .kred d => Sys2Proof.Machine.execKred d s
  | .decomp a => Sys2Proof.Machine.execDecomp a s
  | .qtob => Sys2Proof.Machine.execQtob s
  | .recode => Sys2Proof.Machine.execRecode s
  | .dtob => Sys2Proof.Machine.execDtob s
  | .tbuild a => Sys2Proof.Machine.execTbuild a s
  | .trd d u => Sys2Proof.Machine.execTrd d u s
  | .tsel d n => Sys2Proof.Machine.execTsel d n s
  | .smul d a b => Sys2Proof.Machine.execSmul d a b s
  | .dsmul d a b c e => Sys2Proof.Machine.execDsmul d a b c e s
  | .dsmulg d a b c => Sys2Proof.Machine.execDsmulg d a b c s
  | .penc a => Sys2Proof.Machine.execPenc a s
  | .pdec d => Sys2Proof.Machine.execPdec d s

end Sys2Proof.Machine
end

