-- ==== Sys2Proof/Machine/Command.lean ====
section
/-! DEFINITION. Executing an issued command word: decode, then run or raise IllegalCommand (30_encoding.md R90,
R96, R102). -/

namespace Sys2Proof.Machine

/-- Decode and execute the command word w, one atomic transition (30_encoding.md R90); a word that fails any check of
R102 raises IllegalCommand and changes nothing but RESULT, ERRCMD and BUSY (R96). HALT is not looked at: DESIGN CHOICE
(log entry 16). -/
def runCommand (w : Word) (s : State) : Host.Outcome State Fault Refusal :=
  match decode w with
  | .ok i => exec i s
  | .error _ => .next (s.raise .illegalCommand w)

end Sys2Proof.Machine
end

