-- ==== Sys2Proof/Machine/HostPort.lean ====
section
/-! DEFINITION. The host port: what one access by the host does, with BUSY = 0 and with BUSY = 1 (20_memory.md
section 2, 47_system.md R272, 70_reset_and_hazards.md R326 to R328). -/

namespace Sys2Proof.Machine

/-- The word of the BUF window at byte offset 4m of BUF, byte 4m in bits [7:0] (20_memory.md R68). -/
def bufWord (s : State) (off : Nat) : Word := BitVec.ofNat 32 (Memory.readLE s.buf off 4)

/-- What HostRead(addr) returns with BUSY = 0 (47_system.md R272). -/
def portRead (s : State) (addr : Nat) : Word :=
  if addr = 0x04 then statusWord s
  else if addr = 0x08 then s.result.setWidth 32
  else if addr = 0x0C then s.errcmd
  else if addr = 0x10 then s.blen.setWidth 32
  else if 0x80 ≤ addr then bufWord s (addr - 0x80)
  else 0

/-- The offsets whose reads are unspecified while BUSY = 1: STATUS, RESULT, ERRCMD, BLEN and the BUF window
(70_reset_and_hazards.md R328). -/
def unstable (addr : Nat) : Bool :=
  decide (addr = 0x04 ∨ addr = 0x08 ∨ addr = 0x0C ∨ addr = 0x10 ∨ 0x80 ≤ addr)

/-- What an unspecified read returns while BUSY = 1: any value, but BUSY = 1 in bit 0 of STATUS
(70_reset_and_hazards.md R328). -/
def unspecifiedRead (s : State) (addr : Nat) : Word :=
  if addr = 0x04 then Config.busyRead s.freeCount ||| 1 else Config.busyRead s.freeCount

/-- HostRead(addr): the word goes to the host (readData) and no architectural state changes (20_memory.md R70). -/
def hostRead (s : State) (addr : Nat) : State :=
  if s.busy && unstable addr then
    { s with readData := unspecifiedRead s addr, freeCount := s.freeCount + 1 }
  else { s with readData := portRead s addr }

/-- A write to CMD: dropped with OVR <- 1 while BUSY = 1, ignored while HALT = 1, else the command is issued and BUSY
becomes 1 (30_encoding.md R90, 60_exceptions.md R286, 70_reset_and_hazards.md R327). BUSY is looked at before HALT:
DEDUCED (log entry 14). -/
def writeCmd (s : State) (w : Word) : State :=
  if s.busy then { s with ovr := true }
  else if s.halt then s
  else { s with running := some w }

/-- A write to BLEN: bits [7:0] are kept; dropped with OVR <- 1 while BUSY = 1 (10_state.md R38). -/
def writeBlen (s : State) (w : Word) : State :=
  if s.busy then { s with ovr := true } else { s with blen := w.setWidth 8 }

/-- A write to CTRL, at any time: bit 0 SRST resets and wins, else bit 1 CLROVR clears OVR (10_state.md R39). -/
def writeCtrl (s : State) (w : Word) : State :=
  if w.getLsbD 0 then s.doReset else if w.getLsbD 1 then { s with ovr := false } else s

/-- A write to the BUF window: four bytes; dropped with OVR <- 1 while BUSY = 1 (20_memory.md R68). -/
def writeBuf (s : State) (off : Nat) (w : Word) : State :=
  if s.busy then { s with ovr := true } else { s with buf := Memory.writeLE s.buf off 4 w.toNat }

/-- HostWrite(addr, w) (47_system.md R272); read-only and reserved offsets ignore it (20_memory.md R71). -/
def hostWrite (s : State) (addr : Nat) (w : Word) : State :=
  if addr = 0x00 then writeCmd s w
  else if addr = 0x10 then writeBlen s w
  else if addr = 0x14 then writeCtrl s w
  else if 0x80 ≤ addr then writeBuf s (addr - 0x80) w
  else s

/-- The effect of an access, if its offset is one of the port's: a multiple of 4 in 0x00..0xFC (20_memory.md R66,
R69). -/
def atOffset (addr : Nat) (s : State) : Host.Outcome State Fault Refusal :=
  if 0x100 ≤ addr then .fault (.hostAddressOutside addr)
  else if addr % 4 ≠ 0 then .refused (.hostAddressMisaligned addr)
  else .next s

/-- One access by the outside, an indivisible step (20_memory.md R66, 70_reset_and_hazards.md R320). -/
def hostAccess (x : HostAccess) (s : State) : Host.Outcome State Fault Refusal :=
  match x with
  | .read addr => atOffset addr (hostRead s addr)
  | .write addr w => atOffset addr (hostWrite s addr w)
  | .reset => .next s.doReset

end Sys2Proof.Machine
end

