-- ==== Sys2Proof/Machine/Step.lean ====
section
/-! DEFINITION. One step of the machine. There is no program counter (10_state.md R22): the next command is the word
the host last wrote to CMD. -/

namespace Sys2Proof.Machine

/-- One step. While a command executes (BUSY = 1), the host's next access happens now if it overlaps, else the
command completes; while the core is idle, the host's next access happens; with none to come the core stays idle
(10_state.md R20, R40, 70_reset_and_hazards.md R320, R326; log entries 2 and 3). HALT is looked at when a word is
written to CMD (60_exceptions.md R286), not here: a word held with HALT = 1, which no run reaches, executes. DESIGN
CHOICE (log entry 16). -/
def step (s : State) : Host.Outcome State Fault Refusal :=
  match s.running, s.inbox with
  | some _, ⟨x, true⟩ :: rest => hostAccess x { s with inbox := rest }
  | some w, _ => runCommand w s
  | none, ⟨x, _⟩ :: rest => hostAccess x { s with inbox := rest }
  | none, [] => .next s

/-- s with the command word w issued (written to CMD and accepted) and no access of the host to come, so that the
very next step runs it (log entry 2). Of a halted state too, where a write to CMD would be ignored: DESIGN CHOICE (log
entry 16). -/
def State.withFetchWord (s : State) (nbits w : Nat) : State :=
  { s with running := some (BitVec.ofNat 32 (w % 2 ^ nbits)), inbox := [] }

end Sys2Proof.Machine
end

