-- ==== Sys2Proof/Machine/Pseudo.lean ====
section
/-! DEFINITION. The pseudo-instructions (30_encoding.md R101): names for fixed sequences of commands, no words of
their own. -/

namespace Sys2Proof.Machine

/-- The six pseudo-instructions. -/
inductive Pseudo where
  | paff (x y : EReg) (s : PReg)
  | fmov (d s : FReg)
  | emov (d s : EReg)
  | pmov (d s : PReg)
  | pisid (s t : PReg)
  | ediv (d a b : EReg)
deriving DecidableEq, Repr

/-- What the notes of 30_encoding.md R101 require: PAFF requires Ex != Ey, EDIV requires d != a. -/
def Pseudo.wf : Pseudo → Bool
  | .paff x y _ => decide (x ≠ y)
  | .ediv d a _ => decide (d ≠ a)
  | .fmov .. | .emov .. | .pmov .. | .pisid .. => true

/-- The exact expansions (30_encoding.md R101). -/
def Pseudo.expand : Pseudo → List Instr
  | .paff x y s => [.paffx x s, .paffy y s]
  | .fmov d s => [.fneg d s, .fneg d d]
  | .emov d s => [.econj d s, .econj d d]
  | .pmov d s => [.pneg d s, .pneg d d]
  | .pisid s t => [.pid t, .peq s t]
  | .ediv d a b => [.einv d b, .emul d a d]

end Sys2Proof.Machine
end

