-- ==== Sys2Proof/Safety.lean ====
section
/-! DEFINITION. The vocabulary of the claims: canonical values, the machine's invariant, values of byte strings and
digit streams as the spec writes them, sequences of commands, and the spec's tables over all commands. No meaning uses
it. -/

namespace Sys2Proof.Machine

open Sys2Proof.Config (prime)

/-- An integer in [0, p) (10_state.md R27). -/
abbrev FeCanonical (a : Fe) : Prop := a.toNat < prime

/-- Both components in [0, p). -/
abbrev Fe2Canonical (u : Fe2) : Prop := FeCanonical u.re ∧ FeCanonical u.im

/-- All four coordinates canonical. -/
abbrev PointCanonical (P : Point) : Prop :=
  Fe2Canonical P.X ∧ Fe2Canonical P.Y ∧ Fe2Canonical P.Z ∧ Fe2Canonical P.T

/-- A canonical tuple that is a valid curve point (10_state.md R27, R28). -/
abbrev GoodPoint (P : Point) : Prop := PointCanonical P ∧ pvalid P = true

/-- The canonical-value invariant of 10_state.md R27 over every F, E, P register and T entry. -/
abbrev State.Canonical (s : State) : Prop :=
  (∀ r : Fin 8, FeCanonical s.f[r]) ∧ (∀ r : Fin 8, Fe2Canonical s.e[r]) ∧ (∀ r : Fin 4, PointCanonical s.p[r])
    ∧ ∀ u : Fin 8, PointCanonical s.t[u]

/-- What holds at every step boundary. -/
structure State.Inv (s : State) : Prop where
  /-- 10_state.md R27. -/
  canonical : s.Canonical
  /-- BUF is in its canonical form, all addresses below 128 (10_state.md R41). -/
  memory : Memory.wf s.buf = true
  /-- Codes 8..255 are never produced (60_exceptions.md R281). -/
  resultCode : s.result.toNat ≤ 7
  /-- HALT = 1: idle, and RESULT keeps the fatal error's value (60_exceptions.md R286). -/
  halted : s.halt = true → s.running = none ∧ s.result = 4
  /-- A valid Q is in the domain of recode: lanes non-negative, a1 odd (44_scalar.md R195, R199). -/
  quad : s.qv = true → s.q.recodable = true
  /-- Valid digits: the top one is never negated, the one below always (44_scalar.md R199, 45_multiplier.md R225). -/
  digits : s.dv = true → s.dig[64].neg = false ∧ s.dig[63].neg = true
  /-- GTV is set only by a multiplication, which also sets QV, DV and TV, and only reset clears them
  (10_state.md R36). -/
  generatorTable : s.gtv = true → s.qv = true ∧ s.dv = true ∧ s.tv = true

/-- The integer that MemRead(off, n) denotes: the sum over k of BUF[off + k] * 256^k (00_scope.md section 5). -/
abbrev memValue (m : Memory) (off n : Nat) : Nat :=
  ∑ k ∈ Finset.range n, (Memory.read m (off + k)).toNat * 256 ^ k

/-- m' is m after MemWrite(0, n, v): the n bytes of v, little-endian, and no other byte changed (00_scope.md section
5, 20_memory.md R78). -/
abbrev WroteString (m m' : Memory) (n v : Nat) : Prop :=
  (∀ k, k < n → Memory.read m' k = BitVec.ofNat 8 (v / 256 ^ k)) ∧ ∀ k, n ≤ k → Memory.read m' k = Memory.read m k

/-- The number that a read at offset 4*m returns with BUSY = 0 (47_system.md R272, 20_memory.md R68 to R71, 10_state.md
R36): STATUS, RESULT, ERRCMD, BLEN, four bytes of BUF from 0x80 on, else 0. -/
abbrev idleReadValue (s : State) (m : Nat) : Nat :=
  if m = 1 then
    2 * s.flag.toNat + 4 * s.halt.toNat + 8 * s.ovr.toNat + 16 * s.gtv.toNat + 32 * s.qv.toNat + 64 * s.dv.toNat
      + 128 * s.tv.toNat
  else if m = 2 then s.result.toNat
  else if m = 3 then s.errcmd.toNat
  else if m = 4 then s.blen.toNat
  else if 32 ≤ m then memValue s.buf (4 * (m - 32)) 4
  else 0

/-- s after the command i raised a recoverable error of code c: RESULT and ERRCMD (and BUSY) only (60_exceptions.md
R283). -/
abbrev raised (s : State) (i : Instr) (c : BitVec 8) : State :=
  { s with result := c, errcmd := encode i, running := none }

/-- s after the command i raised ZeroInversion (60_exceptions.md R283, R286). -/
abbrev raisedFatal (s : State) (i : Instr) : State :=
  { s with result := 4, errcmd := encode i, halt := true, running := none }

/-- None of the three points that a table is built from is exceptional (43_curvepoint.md R176, 45_multiplier.md
R220). -/
abbrev NotExceptional (P : Point) : Prop :=
  (phi P).Z ≠ ezero ∧ (psi P).Z ≠ ezero ∧ (psi (phi P)).Z ≠ ezero

/-- The number of a format R command word from its fields (30_encoding.md R100). -/
abbrev wordR (op rd rs1 rs2 rs3 rs4 : Nat) : Nat :=
  0x1000000 * op + 0x100000 * rd + 0x10000 * rs1 + 0x1000 * rs2 + 0x100 * rs3 + 0x10 * rs4

/-- The number of a format I command word from its fields (30_encoding.md R100). -/
abbrev wordI (op rd imm : Nat) : Nat := 0x1000000 * op + 0x100000 * rd + 0x10 * imm

/-- The factor of a digit: +1 or -1 (44_scalar.md R199). -/
abbrev digitSign (d : Digit) : Int := if d.neg then -1 else 1

/-- The sum over i of s_i * u(index_i) * 2^i (44_scalar.md R199). -/
abbrev digitSum (dg : Vector Digit 65) (u : Fin 8 → Nat) : Int :=
  ∑ i : Fin 65, digitSign dg[i] * (u dg[i].index : Int) * 2 ^ i.val

/-- The product of n steps of the loop driven by hand: PDBL, TSEL, PADD for the digits n-1 down to 0
(45_multiplier.md R225, R226). -/
def loopByHand (d x : PReg) : Nat → List Instr
  | 0 => []
  | n + 1 => .pdbl d d :: .tsel x (BitVec.ofNat 8 n) :: .padd d d x :: loopByHand d x n

/-- Go on with f from a next state. -/
def andThen (o : Host.Outcome State Fault Refusal) (f : State → Host.Outcome State Fault Refusal) :
    Host.Outcome State Fault Refusal :=
  match o with
  | .next t => f t
  | .fault r => .fault r
  | .refused r => .refused r

/-- The commands one after another, as a host issues them (47_system.md R273); it stops at an outcome that is no next
state. -/
def execAll : List Instr → State → Host.Outcome State Fault Refusal
  | [], s => .next s
  | i :: rest, s => andThen (exec i s) (execAll rest)

/-- (c*X, c*Y, c*Z, c*T), another tuple of the same affine point (43_curvepoint.md R161). -/
def scalePoint (c : Fe2) (P : Point) : Point := ⟨emul c P.X, emul c P.Y, emul c P.Z, emul c P.T⟩

/-- The next access of the host does not overlap a command that is executing. -/
abbrev NoOverlap (s : State) : Prop := ∀ x rest, s.inbox ≠ ⟨x, true⟩ :: rest

/-- The mask and match of every row of the opcode table, without TSEL's (30_encoding.md R95, R102). -/
def tableRows : List (Word × Word) :=
  [(0xFFFFFFFF, 0x00000000), (0xFF888FFF, 0x10000000), (0xFF888FFF, 0x11000000), (0xFF888FFF, 0x12000000),
    (0xFF88FFFF, 0x13000000), (0xFF88FFFF, 0x14000000), (0xFF88FFFF, 0x15000000), (0xFFF8FFFF, 0x16000000),
    (0xFFF88FFF, 0x17000000), (0xFFF8FFFF, 0x18000000), (0xFF8FFFFF, 0x19000000), (0xFF888FFF, 0x20000000),
    (0xFF888FFF, 0x21000000), (0xFF888FFF, 0x22000000), (0xFF88FFFF, 0x23000000), (0xFF88FFFF, 0x24000000),
    (0xFF88FFFF, 0x25000000), (0xFFF8FFFF, 0x26000000), (0xFFF88FFF, 0x27000000), (0xFFF8FFFF, 0x28000000)]
  ++ [(0xFF8FFFFF, 0x29000000), (0xFF88FFFF, 0x2A000000), (0xFF888FFF, 0x2B000000), (0xFF88FFFF, 0x2C000000),
    (0xFF88FFFF, 0x2D000000), (0xFFCFFFFF, 0x30000000), (0xFFCCCFFF, 0x31000000), (0xFFCCFFFF, 0x32000000),
    (0xFFCCFFFF, 0x33000000), (0xFFFCFFFF, 0x34000000), (0xFF8CFFFF, 0x35000000), (0xFF8CFFFF, 0x36000000),
    (0xFFFCCFFF, 0x37000000), (0xFFC88FFF, 0x38000000), (0xFFF88FFF, 0x39000000), (0xFFCCFFFF, 0x3A000000),
    (0xFFCCFFFF, 0x3B000000), (0xFFCFFFFF, 0x3C000000), (0xFFCFFFFF, 0x40000000), (0xFFFCFFFF, 0x41000000)]
  ++ [(0xFFCFFFFF, 0x42000000), (0xFFFCFFFF, 0x43000000), (0xFFFFFFFF, 0x44000000), (0xFFFFFFFF, 0x45000000),
    (0xFFFFFFFF, 0x46000000), (0xFFFCFFFF, 0x50000000), (0xFFCFFF8F, 0x51000000), (0xFFCCCFFF, 0x53000000),
    (0xFFCCCCCF, 0x54000000), (0xFFCCCCFF, 0x55000000), (0xFFFCFFFF, 0x60000000), (0xFFCFFFFF, 0x61000000)]

/-- The error codes of each command, from the table of 60_exceptions.md R282. -/
def codesOf : Instr → List Nat
  | .ffromb .. | .efromb .. => [3, 1]
  | .kfromb .. | .kred .. => [3]
  | .pdec .. => [3, 1, 2]
  | .pseta .. => [2]
  | .finv .. | .einv .. | .paffx .. | .paffy .. | .penc .. => [4]
  | .qtob | .recode | .dtob | .trd .. | .tsel .. => [6]
  | .pphi .. | .ppsi .. | .tbuild .. | .smul .. | .dsmul .. | .dsmulg .. => [7]
  | _ => []

/-- What each command may write, register file by register file (10_state.md R23 to R26, R30 to R33, 20_memory.md
R78): 0 F, 1 E, 2 P, 3 K, 4 Q, 5 DIG, 6 T, 7 BUF and BLEN, 8 FLAG. -/
def writesOf : Instr → List Nat
  | .fadd .. | .fsub .. | .fmul .. | .fsqr .. | .fneg .. | .finv .. | .ffromb .. | .ere .. | .eim .. => [0]
  | .eadd .. | .esub .. | .emul .. | .esqr .. | .eneg .. | .einv .. | .efromb .. | .econj .. | .epack .. | .paffx ..
  | .paffy .. => [1]
  | .pid .. | .padd .. | .pdbl .. | .pneg .. | .pseta .. | .pphi .. | .ppsi .. | .pgen .. | .trd .. | .tsel ..
  | .pdec .. => [2]
  | .kfromb .. | .kred .. => [3]
  | .decomp .. => [4]
  | .recode => [5]
  | .tbuild .. => [6]
  | .smul .. | .dsmul .. | .dsmulg .. => [2, 4, 5, 6]
  | .ftob .. | .etob .. | .ktob .. | .qtob | .dtob | .penc .. => [7]
  | .fisz .. | .feq .. | .eisz .. | .eeq .. | .ponc .. | .eonc .. | .peq .. => [8]
  | .nop => []

end Sys2Proof.Machine
end

