-- ==== Sys2Proof/Certificates/Slice0/Obligations.lean ====
section
/-! DEFINITION. The statements for the provers. `prime` is p; a next state is written as the state before with the
fields that change, so that each equation is also the command's frame. -/

open Sys2Proof Sys2Proof.Machine
open Sys2Proof.Config (prime)

/-! Encoding. -/

/-- Words written out from the spec's encodings decode to the commands they stand for: 95_test_vectors.md 2.1 and the
Examples of the rules of PID, PADD, PDBL, PNEG, PPHI, PPSI, PGEN, DECOMP, SMUL and DSMULG. -/
def Obligations.SampleWordsDecode : Prop :=
  decode 0x00000000 = .ok .nop ∧ decode 0x10123000 = .ok (.fadd 1 2 3) ∧ decode 0x2B123000 = .ok (.epack 1 2 3)
    ∧ decode 0x38367000 = .ok (.pseta 3 6 7) ∧ decode 0x42200000 = .ok (.kred 2) ∧ decode 0x51100070 = .ok (.trd 1 7)
    ∧ decode 0x52300400 = .ok (.tsel 3 64) ∧ decode 0x54001120 = .ok (.dsmul 0 0 1 1 2)
    ∧ decode 0x61200000 = .ok (.pdec 2) ∧ decode 0x30100000 = .ok (.pid 1) ∧ decode 0x31012000 = .ok (.padd 0 1 2)
    ∧ decode 0x32210000 = .ok (.pdbl 2 1) ∧ decode 0x33100000 = .ok (.pneg 1 0) ∧ decode 0x3A100000 = .ok (.pphi 1 0)
    ∧ decode 0x3B100000 = .ok (.ppsi 1 0) ∧ decode 0x3C100000 = .ok (.pgen 1) ∧ decode 0x43030000 = .ok (.decomp 3)
    ∧ decode 0x53123000 = .ok (.smul 1 2 3) ∧ decode 0x55312000 = .ok (.dsmulg 3 1 2 0)
    ∧ decode 0x10800000 = .error .registerRange
    ∧ decode 0x52000410 = .error .immediateRange ∧ decode 0x44100000 = .error .unusedField
    ∧ decode 0x00000001 = .error .lowNibble ∧ decode 0xFFFFFFFF = .error .unassignedOpcode

/-- Decoding the word of a well-formed command gives the command back (30_encoding.md R97, R100). -/
def Obligations.DecodeOfEncodeIsIdentity : Prop :=
  ∀ i : Instr, i.wf = true → decode (encode i) = .ok i

/-- 30_encoding.md R97: a legal word is the encoding of what it decodes to, so no two words denote one command. -/
def Obligations.EachLegalWordHasOneReading : Prop :=
  (∀ (w : Word) (i : Instr), decode w = .ok i → i.wf = true ∧ encode i = w ∧ decode (encode i) = .ok i)
    ∧ ∀ (w w' : Word) (i : Instr), decode w = .ok i → decode w' = .ok i → w = w'

/-- 30_encoding.md R102: the legal words are exactly those that a table row's mask and match accept, TSEL's with imm8
at most 64. -/
def Obligations.LegalWordsAreTheTables : Prop :=
  ∀ w : Word, (∃ i, decode w = .ok i)
    ↔ (∃ r ∈ tableRows, w &&& r.1 = r.2)
      ∨ (w &&& 0xFFCFF80F = 0x52000000 ∧ ((w >>> 4) &&& 0xFF).toNat ≤ 64)

/-- 30_encoding.md R96: a word that does not decode raises IllegalCommand and changes RESULT and ERRCMD (and BUSY)
alone; a word with an opcode byte that R95 does not assign is one. That the error comes in a step of its own is the
model's (log entry 3), and so is the clause in a state with HALT = 1, which no run reaches (log entry 16). -/
def Obligations.IllegalWordRaisesIllegalCommand : Prop :=
  (∀ (s : State) (w : Word) (e : Illegal), s.running = some w → NoOverlap s → decode w = .error e →
      step s = .next { s with result := 5, errcmd := w, running := none })
    ∧ ∀ w : Word,
      (w >>> 24).toNat ∉ [0x00] ++ List.range' 0x10 10 ++ List.range' 0x20 14 ++ List.range' 0x30 13
          ++ List.range' 0x40 7 ++ List.range' 0x50 6 ++ List.range' 0x60 2 →
        ∃ e, decode w = .error e

/-! The step and the host port. -/

/-- A step runs the decoded command (30_encoding.md R90): when the issued word decodes to i and no access of the host
overlaps, the step is exec i. A write to CMD on the idle, not halted core issues the word, and the step after it runs
it unless an access overlaps: that split of 47_system.md R272's 'decode and execute w' into two steps is the model's
(log entry 3), and so is the inbox (log entry 2). So is the first clause in a state with HALT = 1, which no run reaches
(log entry 16). -/
def Obligations.StepRunsDecodedCommand : Prop :=
  (∀ (s : State) (w : Word) (i : Instr), s.running = some w → NoOverlap s → decode w = .ok i → step s = exec i s)
    ∧ (∀ (s : State) (w : Word) (o : Bool) (rest : List HostEvent),
      s.running = none → s.halt = false → s.inbox = ⟨.write 0 w, o⟩ :: rest →
        step s = .next { s with running := some w, inbox := rest })
    ∧ ∀ s : State, s.running = none → s.inbox = [] → step s = .next s

/-- 10_state.md R44: the state after reset. -/
def Obligations.ResetGivesTheTabledValues : Prop :=
  let s := State.reset
  let O : Point := ⟨⟨0, 0⟩, ⟨1, 0⟩, ⟨1, 0⟩, ⟨0, 0⟩⟩
  (∀ r : Fin 8, s.f[r] = 0) ∧ (∀ r : Fin 8, s.e[r] = ⟨0, 0⟩) ∧ (∀ r : Fin 4, s.p[r] = O) ∧ (∀ r : Fin 4, s.k[r] = 0)
    ∧ s.q = ⟨0, 0, 0, 0⟩ ∧ (∀ i : Fin 65, s.dig[i] = ⟨false, 0⟩) ∧ (∀ u : Fin 8, s.t[u] = O)
    ∧ (∀ a, Memory.read s.buf a = 0) ∧ s.blen = 0 ∧ s.flag = false ∧ s.halt = false ∧ s.ovr = false ∧ s.gtv = false
    ∧ s.qv = false ∧ s.dv = false ∧ s.tv = false ∧ s.busy = false ∧ s.result = 0 ∧ s.errcmd = 0

/-- 70_reset_and_hazards.md R320: the external reset, and a write of 1 to CTRL.SRST whatever CLROVR, from every state,
BUSY and HALT included, put every element of the architectural state at its reset value. What the host still has to do
and what it last read go on (the model's own fields, log entry 2). -/
def Obligations.ResetActsFromEveryState : Prop :=
  ∀ (s : State) (x : HostAccess) (o : Bool) (rest : List HostEvent),
    s.inbox = ⟨x, o⟩ :: rest → (s.running = none ∨ o = true) →
    (x = .reset ∨ ∃ w : Word, w.getLsbD 0 = true ∧ x = .write 0x14 w) →
      step s = .next { State.reset with inbox := rest, readData := s.readData, freeCount := s.freeCount }

/-- 60_exceptions.md R286: while HALT = 1 a write to CMD is ignored and changes nothing, and host reads, and host
writes to BUF, BLEN and CTRL, work as usual: a read returns what it returns with HALT = 0, a write to the BUF window
replaces its four bytes and no other, SRST resets (so HALT falls), CLROVR clears OVR. That the access is taken from an
inbox, and that a read's value is kept in readData, are the model's (log entries 2 and 5). -/
def Obligations.HaltedCoreIgnoresCommands : Prop :=
  ∀ (s : State) (o : Bool) (rest : List HostEvent), s.halt = true → s.running = none →
    (∀ w, s.inbox = ⟨.write 0 w, o⟩ :: rest → step s = .next { s with inbox := rest })
      ∧ (∀ w, s.inbox = ⟨.write 0x10 w, o⟩ :: rest → step s = .next { s with inbox := rest, blen := w.setWidth 8 })
      ∧ (∀ w, s.inbox = ⟨.write 0x14 w, o⟩ :: rest → step s =
          if w.getLsbD 0 then
            .next { State.reset with inbox := rest, readData := s.readData, freeCount := s.freeCount }
          else if w.getLsbD 1 then .next { s with inbox := rest, ovr := false }
          else .next { s with inbox := rest })
      ∧ (∀ w m, m < 32 → s.inbox = ⟨.write (0x80 + 4 * m) w, o⟩ :: rest →
          ∃ b, step s = .next { s with inbox := rest, buf := b }
            ∧ (∀ k, k < 4 → Memory.read b (4 * m + k) = w.extractLsb' (8 * k) 8)
            ∧ ∀ a, a < 4 * m ∨ 4 * m + 4 ≤ a → Memory.read b a = Memory.read s.buf a)
      ∧ ∀ m, m < 64 → s.inbox = ⟨.read (4 * m), o⟩ :: rest →
          ∃ v : Word, step s = .next { s with inbox := rest, readData := v } ∧ v.toNat = idleReadValue s m

/-- 70_reset_and_hazards.md R327: writes while BUSY = 1. CMD, BLEN and the BUF window: dropped with OVR <- 1. CTRL: at
once (SRST abandons the command, CLROVR clears OVR). Read-only and reserved offsets: ignored. The inbox and its
overlap mark are the model's (log entries 2 and 3). So is that BUSY is looked at before HALT: with HALT = 1 too, which
no run reaches, a write to CMD sets OVR, where 60_exceptions.md R286 alone would leave it (log entry 14, DEDUCED). -/
def Obligations.WritesWhileBusyAreDropped : Prop :=
  ∀ (s : State) (c w : Word) (m : Nat) (rest : List HostEvent), s.running = some c → m < 64 →
    s.inbox = ⟨.write (4 * m) w, true⟩ :: rest →
    step s =
      if m = 0 ∨ m = 4 ∨ 32 ≤ m then .next { s with inbox := rest, ovr := true }
      else if m = 5 then
        if w.getLsbD 0 then
          .next { State.reset with inbox := rest, readData := s.readData, freeCount := s.freeCount }
        else if w.getLsbD 1 then .next { s with inbox := rest, ovr := false }
        else .next { s with inbox := rest }
      else .next { s with inbox := rest }

/-- 70_reset_and_hazards.md R328: a read of STATUS, RESULT, ERRCMD, BLEN or BUF while BUSY = 1 returns a fresh free
value, with BUSY = 1 in bit 0 of STATUS; no architectural state changes. The counter is the model's (log entry 4);
that the other offsets still read 0 is deduced (log entry 13). -/
def Obligations.ReadsWhileBusyAreUnspecified : Prop :=
  ∀ (s : State) (c : Word) (m : Nat) (rest : List HostEvent), s.running = some c → m < 64 →
    s.inbox = ⟨.read (4 * m), true⟩ :: rest →
    ((m = 1 ∨ m = 2 ∨ m = 3 ∨ m = 4 ∨ 32 ≤ m) →
      ∃ v : Word, step s = .next { s with inbox := rest, readData := v, freeCount := s.freeCount + 1 }
        ∧ (m = 1 → v.getLsbD 0 = true)
        ∧ ∀ j, (m = 1 → 0 < j) → v.getLsbD j = (Config.busyRead s.freeCount).getLsbD j)
      ∧ ((m = 0 ∨ 5 ≤ m ∧ m < 32) → step s = .next { s with inbox := rest, readData := 0 })

/-- 47_system.md R272 and 20_memory.md R70, R71: what HostRead returns with BUSY = 0; nothing else changes. The inbox
and the latch readData are the model's (log entries 2 and 5). -/
def Obligations.HostReadsReturnTheTabledValues : Prop :=
  ∀ (s : State) (m : Nat) (o : Bool) (rest : List HostEvent), s.running = none → m < 64 →
    s.inbox = ⟨.read (4 * m), o⟩ :: rest →
    ∃ v : Word, step s = .next { s with inbox := rest, readData := v }
      ∧ v.toNat = idleReadValue s m

/-- 47_system.md R272 and 20_memory.md R71: what HostWrite does with BUSY = 0 at every offset but the BUF window
(10_state.md R34, R36, R40). The inbox is the model's (log entry 2). So is the split of R272's 'decode and execute w'
into two steps: the accepted write to CMD sets BUSY and holds w, the next step executes it (log entry 3). -/
def Obligations.HostWritesHaveTheTabledEffects : Prop :=
  ∀ (s : State) (m : Nat) (w : Word) (o : Bool) (rest : List HostEvent), s.running = none → m < 32 →
    s.inbox = ⟨.write (4 * m) w, o⟩ :: rest →
    step s =
      if m = 0 then (if s.halt then .next { s with inbox := rest } else .next { s with inbox := rest, running := some w })
      else if m = 4 then .next { s with inbox := rest, blen := w.extractLsb' 0 8 }
      else if m = 5 then
        if w.getLsbD 0 then
          .next { State.reset with inbox := rest, readData := s.readData, freeCount := s.freeCount }
        else if w.getLsbD 1 then .next { s with inbox := rest, ovr := false }
        else .next { s with inbox := rest }
      else .next { s with inbox := rest }

/-- 20_memory.md R68: the word at 0x80 + 4m is BUF[4m] to BUF[4m+3], byte 4m lowest. A write, whatever the host does
next, replaces those four bytes and no other; a read returns the word that those four bytes make, and so the word just
written if it follows the write; neither changes BLEN. The inbox and readData are the model's (log entries 2 and 5). -/
def Obligations.BufWindowIsLittleEndian : Prop :=
  ∀ (s : State) (m : Nat) (w : Word) (o : Bool) (rest : List HostEvent), s.running = none → m < 32 →
    (s.inbox = ⟨.write (0x80 + 4 * m) w, o⟩ :: rest →
        ∃ b, step s = .next { s with inbox := rest, buf := b }
          ∧ (∀ k, k < 4 → Memory.read b (4 * m + k) = w.extractLsb' (8 * k) 8)
          ∧ ∀ a, a < 4 * m ∨ 4 * m + 4 ≤ a → Memory.read b a = Memory.read s.buf a)
      ∧ (s.inbox = ⟨.read (0x80 + 4 * m), o⟩ :: rest →
        ∃ v : Word, step s = .next { s with inbox := rest, readData := v }
          ∧ ∀ k, k < 4 → v.extractLsb' (8 * k) 8 = Memory.read s.buf (4 * m + k))
      ∧ ∀ (o' : Bool) (rest' : List HostEvent),
        s.inbox = ⟨.write (0x80 + 4 * m) w, o⟩ :: ⟨.read (0x80 + 4 * m), o'⟩ :: rest' →
          ∃ t, step s = .next t ∧ step t = .next { t with inbox := rest', readData := w } ∧ t.blen = s.blen

/-! Rules about every command. -/

/-- 60_exceptions.md R280: every executed command succeeds (RESULT = 0, ERRCMD unchanged) or raises an error of R281's
codes. No command faults or is refused, and BUSY is 0 after it. -/
def Obligations.EveryCommandSucceedsOrRaises : Prop :=
  ∀ (i : Instr) (s : State), ∃ t, exec i s = .next t ∧ t.running = none
    ∧ ((t.result = 0 ∧ t.errcmd = s.errcmd ∧ t.halt = s.halt)
      ∨ (1 ≤ t.result.toNat ∧ t.result.toNat ≤ 7 ∧ t.errcmd = encode i))

/-- 60_exceptions.md R283: a command that raises error code c writes RESULT <- c, ERRCMD <- its word, HALT <- 1 if
c = 4, and nothing else (BUSY falls). -/
def Obligations.FailedCommandHasNoPartialEffect : Prop :=
  ∀ (i : Instr) (s t : State), exec i s = .next t → t.result ≠ 0 →
    t = { s with result := t.result, errcmd := encode i, halt := s.halt || decide (t.result = 4), running := none }

/-- 60_exceptions.md R282: a legally encoded command raises only what the table lists for it. -/
def Obligations.CommandsRaiseOnlyTheirErrors : Prop :=
  ∀ (i : Instr) (s t : State), i.wf = true → exec i s = .next t →
    t.result.toNat = 0 ∨ t.result.toNat ∈ codesOf i

/-- The frame of every command over the register files, BUF (every byte), BLEN and FLAG: what the spec does not list
as written by the command is unchanged. -/
def Obligations.CommandsWriteOnlyTheirFiles : Prop :=
  ∀ (i : Instr) (s t : State), exec i s = .next t →
    (0 ∉ writesOf i → t.f = s.f) ∧ (1 ∉ writesOf i → t.e = s.e)
      ∧ (2 ∉ writesOf i → t.p = s.p) ∧ (3 ∉ writesOf i → t.k = s.k)
      ∧ (4 ∉ writesOf i → t.q = s.q) ∧ (5 ∉ writesOf i → t.dig = s.dig)
      ∧ (6 ∉ writesOf i → t.t = s.t)
      ∧ (7 ∉ writesOf i → t.blen = s.blen ∧ ∀ a, Memory.read t.buf a = Memory.read s.buf a)
      ∧ (8 ∉ writesOf i → t.flag = s.flag)

/-- 10_state.md R36: no command clears QV, DV, TV or GTV; QV, DV and TV are set by the commands R36 lists, GTV by
DSMULG; no command writes OVR. -/
def Obligations.ValidBitsAreSetByTheirCommandsOnly : Prop :=
  ∀ (i : Instr) (s t : State), exec i s = .next t →
    (s.qv = true → t.qv = true) ∧ (s.dv = true → t.dv = true) ∧ (s.tv = true → t.tv = true)
      ∧ (s.gtv = true → t.gtv = true) ∧ t.ovr = s.ovr
      ∧ (4 ∉ writesOf i → t.qv = s.qv) ∧ (5 ∉ writesOf i → t.dv = s.dv)
      ∧ (6 ∉ writesOf i → t.tv = s.tv)
      ∧ (t.gtv = s.gtv ∨ ∃ d a b c, i = .dsmulg d a b c ∧ t.result = 0)

/-- 10_state.md R33, R43: no command reads FLAG, and GTV changes no command's result. With the bit changed the command
does the same; the bit keeps its changed value unless the command writes it. -/
def Obligations.FlagAndGtvAreNeverRead : Prop :=
  ∀ (i : Instr) (s t : State) (b : Bool), exec i s = .next t →
    (exec i { s with flag := b } = .next t ∨ exec i { s with flag := b } = .next { t with flag := b })
      ∧ (exec i { s with gtv := b } = .next t ∨ exec i { s with gtv := b } = .next { t with gtv := b })

/-- The invariant of every step: canonical registers (10_state.md R27), BUF's canonical form, legal RESULT codes, HALT
idle with RESULT = 4, a valid Q in recode's domain, the digits' top signs, GTV with the other valid bits. The
parameters are the candidates (log entry 1). -/
def Obligations.EveryStepKeepsTheInvariant : Prop :=
  ∀ s t : State, s.Inv → step s = .next t → t.Inv

/-- The invariant holds right after reset. -/
def Obligations.ResetMeetsTheInvariant : Prop := State.reset.Inv

/-- 47_system.md R270: NOP is the all-zero word; RESULT <- 0 and nothing else (BUSY falls). With HALT = 1 its word is
ignored like any command; that the access is taken from an inbox is the model's (log entry 2). -/
def Obligations.NopOnlyClearsResult : Prop :=
  encode .nop = 0x00000000 ∧ (∀ s : State, exec .nop s = .next { s with result := 0, running := none })
    ∧ ∀ (s : State) (o : Bool) (rest : List HostEvent), s.halt = true → s.running = none →
      s.inbox = ⟨.write 0 (encode .nop), o⟩ :: rest → step s = .next { s with inbox := rest }

/-! PrimeField. -/

/-- 41_primefield.md R120: the reducer is the remainder modulo p. -/
def Obligations.ReducerIsRemainder : Prop := ∀ z, z < 2 ^ 254 → red z = z % prime

/-- 41_primefield.md R121 to R125: the exact result modulo p in F[d], and nothing else but RESULT and BUSY. FSUB and FNEG
are stated for canonical operands, as every register holds (R27). -/
def Obligations.PrimeFieldArithmeticIsExact : Prop :=
  ∀ (s : State) (d a b : FReg),
    ((encode (.fadd d a b)).toNat = wordR 0x10 d a b 0 0 ∧ ∃ v : Fe, v.toNat = (s.f[a].toNat + s.f[b].toNat) % prime
        ∧ exec (.fadd d a b) s = .next { s with f := s.f.set d v, result := 0, running := none })
      ∧ (FeCanonical s.f[a] → FeCanonical s.f[b] → (encode (.fsub d a b)).toNat = wordR 0x11 d a b 0 0
        ∧ ∃ v : Fe, v.toNat = (if s.f[b].toNat ≤ s.f[a].toNat then s.f[a].toNat - s.f[b].toNat
            else s.f[a].toNat + prime - s.f[b].toNat)
          ∧ exec (.fsub d a b) s = .next { s with f := s.f.set d v, result := 0, running := none })
      ∧ ((encode (.fmul d a b)).toNat = wordR 0x12 d a b 0 0
        ∧ ∃ v : Fe, v.toNat = (s.f[a].toNat * s.f[b].toNat) % prime
          ∧ exec (.fmul d a b) s = .next { s with f := s.f.set d v, result := 0, running := none })
      ∧ ((encode (.fsqr d a)).toNat = wordR 0x13 d a 0 0 0
        ∧ ∃ v : Fe, v.toNat = (s.f[a].toNat * s.f[a].toNat) % prime
          ∧ exec (.fsqr d a) s = .next { s with f := s.f.set d v, result := 0, running := none }
          ∧ exec (.fsqr d a) s = exec (.fmul d a a) s)
      ∧ (FeCanonical s.f[a] → (encode (.fneg d a)).toNat = wordR 0x14 d a 0 0 0
        ∧ ∃ v : Fe, v.toNat = (if s.f[a] = 0 then 0 else prime - s.f[a].toNat)
          ∧ exec (.fneg d a) s = .next { s with f := s.f.set d v, result := 0, running := none })

/-- 41_primefield.md R126: FINV gives the unique inverse in [1, p), which is a^(p-2) mod p; on 0 it is fatal and F[d]
is not written. -/
def Obligations.PrimeFieldInverse : Prop :=
  ∀ (s : State) (d a : FReg),
    (encode (.finv d a)).toNat = wordR 0x15 d a 0 0 0
      ∧ (s.f[a] = 0 → exec (.finv d a) s = .next (raisedFatal s (.finv d a)))
      ∧ (FeCanonical s.f[a] → s.f[a] ≠ 0 →
        ∃ v : Fe, exec (.finv d a) s = .next { s with f := s.f.set d v, result := 0, running := none }
          ∧ 1 ≤ v.toNat ∧ v.toNat < prime ∧ (s.f[a].toNat * v.toNat) % prime = 1
          ∧ (∀ u, u < prime → (s.f[a].toNat * u) % prime = 1 → u = v.toNat)
          ∧ v.toNat ≡ s.f[a].toNat ^ (prime - 2) [MOD prime])

/-- 41_primefield.md R127, R128 and 42_extfield.md R148, R149: FLAG is the predicate, nothing else changes. -/
def Obligations.FieldPredicatesSetFlag : Prop :=
  ∀ (s : State) (a b : Fin 8),
    ((encode (.fisz a)).toNat = wordR 0x16 0 a 0 0 0
        ∧ exec (.fisz a) s = .next { s with flag := decide (s.f[a].toNat = 0), result := 0, running := none })
      ∧ ((encode (.feq a b)).toNat = wordR 0x17 0 a b 0 0
        ∧ exec (.feq a b) s = .next { s with flag := decide (s.f[a].toNat = s.f[b].toNat), result := 0, running := none })
      ∧ ((encode (.eisz a)).toNat = wordR 0x26 0 a 0 0 0
        ∧ exec (.eisz a) s = .next { s with
            flag := decide (s.e[a].re.toNat = 0 ∧ s.e[a].im.toNat = 0), result := 0, running := none })
      ∧ ((encode (.eeq a b)).toNat = wordR 0x27 0 a b 0 0
        ∧ exec (.eeq a b) s = .next { s with
            flag := decide (s.e[a].re.toNat = s.e[b].re.toNat ∧ s.e[a].im.toNat = s.e[b].im.toNat), result := 0,
            running := none })

/-- 41_primefield.md R129: FTOB writes the 16 little-endian bytes of F[a] and BLEN = 16; every other byte of BUF is
unchanged. -/
def Obligations.FieldElementToBytes : Prop :=
  ∀ (s : State) (a : FReg), (encode (.ftob a)).toNat = wordR 0x18 0 a 0 0 0
    ∧ ∃ m, exec (.ftob a) s = .next { s with buf := m, blen := 16, result := 0, running := none }
      ∧ WroteString s.buf m 16 s.f[a].toNat

/-- 41_primefield.md R130: FFROMB checks the length, then that the value is below p, then writes it. -/
def Obligations.FieldElementFromBytes : Prop :=
  ∀ (s : State) (d : FReg), (encode (.ffromb d)).toNat = wordR 0x19 d 0 0 0 0
    ∧ (s.blen ≠ 16 → exec (.ffromb d) s = .next (raised s (.ffromb d) 3))
    ∧ (s.blen = 16 → prime ≤ memValue s.buf 0 16 → exec (.ffromb d) s = .next (raised s (.ffromb d) 1))
    ∧ (s.blen = 16 → memValue s.buf 0 16 < prime →
      ∃ v : Fe, v.toNat = memValue s.buf 0 16
        ∧ exec (.ffromb d) s = .next { s with f := s.f.set d v, result := 0, running := none })

/-- 41_primefield.md R133, 42_extfield.md R155: reading a canonical string and writing it again reproduces every byte
of BUF. -/
def Obligations.ByteRoundTripsReproduceTheString : Prop :=
  (∀ (s : State) (d : FReg), s.blen = 16 → memValue s.buf 0 16 < prime →
      ∃ t u, exec (.ffromb d) s = .next t ∧ exec (.ftob d) t = .next u ∧ u.blen = s.blen ∧ u.result = 0
        ∧ ∀ a, Memory.read u.buf a = Memory.read s.buf a)
    ∧ (∀ (s : State) (d : EReg), s.blen = 32 → memValue s.buf 0 16 < prime → memValue s.buf 16 16 < prime →
      ∃ t u, exec (.efromb d) s = .next t ∧ exec (.etob d) t = .next u ∧ u.blen = s.blen ∧ u.result = 0
        ∧ ∀ a, Memory.read u.buf a = Memory.read s.buf a)
    ∧ ∀ (s : State) (d : KReg), s.blen = 32 →
      ∃ t u, exec (.kfromb d) s = .next t ∧ exec (.ktob d) t = .next u ∧ u.blen = s.blen ∧ u.result = 0
        ∧ ∀ a, Memory.read u.buf a = Memory.read s.buf a

/-! ExtensionField. -/

/-- 42_extfield.md R141, R142, R145, R152 to R154, and ECONJ: each component is the exact integer result modulo p (or a
copy), and nothing else changes but RESULT and BUSY. -/
def Obligations.ExtFieldLinearCommandsAreExact : Prop :=
  ∀ (s : State) (d a b : Fin 8),
    ((encode (.eadd d a b)).toNat = wordR 0x20 d a b 0 0 ∧ ∃ v : Fe2,
        exec (.eadd d a b) s = .next { s with e := s.e.set d v, result := 0, running := none }
          ∧ v.re.toNat = (s.e[a].re.toNat + s.e[b].re.toNat) % prime
          ∧ v.im.toNat = (s.e[a].im.toNat + s.e[b].im.toNat) % prime)
      ∧ ((encode (.esub d a b)).toNat = wordR 0x21 d a b 0 0 ∧ ∃ v : Fe2,
        exec (.esub d a b) s = .next { s with e := s.e.set d v, result := 0, running := none }
          ∧ (v.re.toNat : Int) = ((s.e[a].re.toNat : Int) - s.e[b].re.toNat) % prime
          ∧ (v.im.toNat : Int) = ((s.e[a].im.toNat : Int) - s.e[b].im.toNat) % prime)
      ∧ ((encode (.eneg d a)).toNat = wordR 0x24 d a 0 0 0 ∧ ∃ v : Fe2,
        exec (.eneg d a) s = .next { s with e := s.e.set d v, result := 0, running := none }
          ∧ (v.re.toNat : Int) = (-(s.e[a].re.toNat : Int)) % prime
          ∧ (v.im.toNat : Int) = (-(s.e[a].im.toNat : Int)) % prime)
      ∧ ((encode (.econj d a)).toNat = wordR 0x2A d a 0 0 0 ∧ ∃ v : Fe2,
        exec (.econj d a) s = .next { s with e := s.e.set d v, result := 0, running := none }
          ∧ v.re = s.e[a].re ∧ (v.im.toNat : Int) = (-(s.e[a].im.toNat : Int)) % prime)
      ∧ ((encode (.epack d a b)).toNat = wordR 0x2B d a b 0 0
        ∧ exec (.epack d a b) s = .next { s with e := s.e.set d ⟨s.f[a], s.f[b]⟩, result := 0, running := none })
      ∧ ((encode (.ere d a)).toNat = wordR 0x2C d a 0 0 0
        ∧ exec (.ere d a) s = .next { s with f := s.f.set d s.e[a].re, result := 0, running := none })
      ∧ ((encode (.eim d a)).toNat = wordR 0x2D d a 0 0 0
        ∧ exec (.eim d a) s = .next { s with f := s.f.set d s.e[a].im, result := 0, running := none })

/-- 42_extfield.md R143, R144: the Karatsuba product and the two-multiplication square are exactly
(ac - bd) + (ad + bc)i modulo p. -/
def Obligations.ExtFieldProductIsExact : Prop :=
  ∀ (s : State) (d a b : EReg),
    ((encode (.emul d a b)).toNat = wordR 0x22 d a b 0 0 ∧ ∃ v : Fe2,
        exec (.emul d a b) s = .next { s with e := s.e.set d v, result := 0, running := none }
          ∧ (v.re.toNat : Int)
            = ((s.e[a].re.toNat : Int) * s.e[b].re.toNat - (s.e[a].im.toNat : Int) * s.e[b].im.toNat) % prime
          ∧ v.im.toNat = (s.e[a].re.toNat * s.e[b].im.toNat + s.e[a].im.toNat * s.e[b].re.toNat) % prime
          ∧ v = emul s.e[a] s.e[b])
      ∧ ((encode (.esqr d a)).toNat = wordR 0x23 d a 0 0 0
        ∧ exec (.esqr d a) s = .next { s with e := s.e.set d (emul s.e[a] s.e[a]), result := 0, running := none }
        ∧ exec (.esqr d a) s = exec (.emul d a a) s)

/-- 42_extfield.md R146: EINV of a non-zero element is its inverse; of (0, 0) it is fatal and E[d] is not written. -/
def Obligations.ExtFieldInverse : Prop :=
  ∀ (s : State) (d a : EReg),
    (encode (.einv d a)).toNat = wordR 0x25 d a 0 0 0
      ∧ (s.e[a] = ⟨0, 0⟩ → exec (.einv d a) s = .next (raisedFatal s (.einv d a)))
      ∧ (Fe2Canonical s.e[a] → s.e[a] ≠ ⟨0, 0⟩ →
        ∃ v : Fe2, exec (.einv d a) s = .next { s with e := s.e.set d v, result := 0, running := none }
          ∧ Fe2Canonical v
          ∧ ((s.e[a].re.toNat : Int) * v.re.toNat - (s.e[a].im.toNat : Int) * v.im.toNat) % prime = 1
          ∧ (s.e[a].re.toNat * v.im.toNat + s.e[a].im.toNat * v.re.toNat) % prime = 0)

/-- 42_extfield.md R150, R151: ETOB writes re then im and BLEN = 32; EFROMB checks the length, then both halves, then
writes. -/
def Obligations.ExtElementBytes : Prop :=
  (∀ (s : State) (a : EReg), (encode (.etob a)).toNat = wordR 0x28 0 a 0 0 0
      ∧ ∃ m, exec (.etob a) s = .next { s with buf := m, blen := 32, result := 0, running := none }
        ∧ WroteString s.buf m 32 (s.e[a].re.toNat + 256 ^ 16 * s.e[a].im.toNat))
    ∧ ∀ (s : State) (d : EReg), (encode (.efromb d)).toNat = wordR 0x29 d 0 0 0 0
      ∧ (s.blen ≠ 32 → exec (.efromb d) s = .next (raised s (.efromb d) 3))
      ∧ (s.blen = 32 → (prime ≤ memValue s.buf 0 16 ∨ prime ≤ memValue s.buf 16 16) →
        exec (.efromb d) s = .next (raised s (.efromb d) 1))
      ∧ (s.blen = 32 → memValue s.buf 0 16 < prime → memValue s.buf 16 16 < prime →
        ∃ v : Fe2, v.re.toNat = memValue s.buf 0 16 ∧ v.im.toNat = memValue s.buf 16 16
          ∧ exec (.efromb d) s = .next { s with e := s.e.set d v, result := 0, running := none })

/-! CurvePoint. -/

/-- 43_curvepoint.md R162, R172: PID writes O, PGEN writes (Gx, Gy, 1, Gx*Gy); both are valid curve points. The values
of GEN and CURVE_D are the candidates (log entry 1). -/
def Obligations.IdentityAndGeneratorAreLoaded : Prop :=
  (∀ (s : State) (d : PReg),
      (encode (.pid d)).toNat = wordR 0x30 d 0 0 0 0 ∧ (encode (.pgen d)).toNat = wordR 0x3C d 0 0 0 0
        ∧ exec (.pid d) s = .next { s with
          p := s.p.set d ⟨⟨0, 0⟩, ⟨1, 0⟩, ⟨1, 0⟩, ⟨0, 0⟩⟩, result := 0, running := none }
        ∧ exec (.pgen d) s = .next { s with
          p := s.p.set d ⟨genX, genY, ⟨1, 0⟩, emul genX genY⟩, result := 0, running := none })
    ∧ GoodPoint ⟨⟨0, 0⟩, ⟨1, 0⟩, ⟨1, 0⟩, ⟨0, 0⟩⟩ ∧ GoodPoint ⟨genX, genY, ⟨1, 0⟩, emul genX genY⟩

/-- 43_curvepoint.md R160, R163: PADD writes P[d] alone, and for valid points it writes a valid point whose affine
coordinates are the sum of the affine group law, for every pair, equal, opposite or O: the law's two denominators are
never zero. CURVE_D is the candidate, a non-square (log entry 1). -/
def Obligations.PointAdditionIsTheAffineSum : Prop :=
  ∀ (s : State) (d a b : PReg), (encode (.padd d a b)).toNat = wordR 0x31 d a b 0 0
    ∧ ∃ R : Point, exec (.padd d a b) s = .next { s with p := s.p.set d R, result := 0, running := none }
      ∧ (GoodPoint s.p[a] → GoodPoint s.p[b] →
        let x1 := affineX s.p[a]
        let y1 := affineY s.p[a]
        let x2 := affineX s.p[b]
        let y2 := affineY s.p[b]
        let m := emul (emul curveD (emul x1 x2)) (emul y1 y2)
        GoodPoint R ∧ eadd ⟨1, 0⟩ m ≠ ⟨0, 0⟩ ∧ esub ⟨1, 0⟩ m ≠ ⟨0, 0⟩
          ∧ emul (affineX R) (eadd ⟨1, 0⟩ m) = eadd (emul x1 y2) (emul y1 x2)
          ∧ emul (affineY R) (esub ⟨1, 0⟩ m) = eadd (emul y1 y2) (emul x1 x2))

/-- 43_curvepoint.md R164, R165: PDBL and PNEG write P[d] alone; for a valid point PDBL gives a valid point ~ what
PADD of the point to itself gives, PNEG gives (-X, Y, Z, -T), valid, with affine value (-x, y). CURVE_D is the
candidate, a non-square (log entry 1); that PNEG's tuple is R165's own, and not one ~ it, is the model's (log entry 6).
-/
def Obligations.DoublingAndNegation : Prop :=
  ∀ (s : State) (d a : PReg),
    ((encode (.pdbl d a)).toNat = wordR 0x32 d a 0 0 0 ∧ (encode (.pneg d a)).toNat = wordR 0x33 d a 0 0 0)
      ∧ (∃ R : Point, exec (.pdbl d a) s = .next { s with p := s.p.set d R, result := 0, running := none }
        ∧ (GoodPoint s.p[a] → GoodPoint R
          ∧ ∃ A, exec (.padd d a a) s = .next { s with p := s.p.set d A, result := 0, running := none }
            ∧ sameAffine R A = true))
      ∧ ∃ R : Point, exec (.pneg d a) s = .next { s with p := s.p.set d R, result := 0, running := none }
        ∧ R.X = eneg s.p[a].X ∧ R.Y = s.p[a].Y ∧ R.Z = s.p[a].Z ∧ R.T = eneg s.p[a].T
        ∧ (GoodPoint s.p[a] → GoodPoint R ∧ affineX R = eneg (affineX s.p[a]) ∧ affineY R = affineY s.p[a])

/-- 43_curvepoint.md R177 without associativity: O is neutral, -P is the inverse, addition is commutative, negation is
an involution, and the affine coordinates determine the point. CURVE_D is the candidate (log entry 1); that PADD is
commutative on tuples is the model's formula (log entry 6). -/
def Obligations.GroupLawIdentities : Prop :=
  ∀ P Q : Point, GoodPoint P → GoodPoint Q →
    sameAffine (padd P Point.neutral) P = true ∧ sameAffine (padd P (pneg P)) Point.neutral = true
      ∧ padd P Q = padd Q P ∧ pneg (pneg P) = P ∧ sameAffine (ofAffine (affineX P) (affineY P)) P = true

/-- 43_curvepoint.md R166, R169, R171: PONC, PEQ and EONC set FLAG to their predicates and change nothing else. -/
def Obligations.PointPredicatesSetFlag : Prop :=
  (∀ (s : State) (a : PReg), (encode (.ponc a)).toNat = wordR 0x34 0 a 0 0 0
      ∧ ∃ b : Bool, exec (.ponc a) s = .next { s with flag := b, result := 0, running := none }
        ∧ (b = true ↔ s.p[a].Z ≠ ⟨0, 0⟩ ∧ emul s.p[a].X s.p[a].Y = emul s.p[a].Z s.p[a].T
          ∧ eadd (eneg (emul s.p[a].X s.p[a].X)) (emul s.p[a].Y s.p[a].Y)
            = eadd (emul s.p[a].Z s.p[a].Z) (emul curveD (emul s.p[a].T s.p[a].T))))
    ∧ (∀ (s : State) (a c : PReg), (encode (.peq a c)).toNat = wordR 0x37 0 a c 0 0
      ∧ ∃ b : Bool, exec (.peq a c) s = .next { s with flag := b, result := 0, running := none }
        ∧ (b = true ↔ emul s.p[a].X s.p[c].Z = emul s.p[c].X s.p[a].Z
          ∧ emul s.p[a].Y s.p[c].Z = emul s.p[c].Y s.p[a].Z))
    ∧ ∀ (s : State) (a c : EReg), (encode (.eonc a c)).toNat = wordR 0x39 0 a c 0 0
      ∧ ∃ b : Bool, exec (.eonc a c) s = .next { s with flag := b, result := 0, running := none }
        ∧ (b = true ↔ eadd (eneg (emul s.e[a] s.e[a])) (emul s.e[c] s.e[c])
          = eadd ⟨1, 0⟩ (emul (emul curveD (emul s.e[a] s.e[a])) (emul s.e[c] s.e[c])))

/-- 43_curvepoint.md R167, R168: PAFFX and PAFFY write the x and y with x*Z = X and y*Z = Y; on Z = (0, 0) they are
fatal and write no E register. -/
def Obligations.AffineConversionDividesByZ : Prop :=
  ∀ (s : State) (d : EReg) (a : PReg),
    (encode (.paffx d a)).toNat = wordR 0x35 d a 0 0 0 ∧ (encode (.paffy d a)).toNat = wordR 0x36 d a 0 0 0
      ∧ (s.p[a].Z = ⟨0, 0⟩ → exec (.paffx d a) s = .next (raisedFatal s (.paffx d a))
        ∧ exec (.paffy d a) s = .next (raisedFatal s (.paffy d a)))
      ∧ (PointCanonical s.p[a] → s.p[a].Z ≠ ⟨0, 0⟩ →
        ∃ x y : Fe2, exec (.paffx d a) s = .next { s with e := s.e.set d x, result := 0, running := none }
          ∧ exec (.paffy d a) s = .next { s with e := s.e.set d y, result := 0, running := none }
          ∧ Fe2Canonical x ∧ Fe2Canonical y ∧ emul x s.p[a].Z = s.p[a].X ∧ emul y s.p[a].Z = s.p[a].Y)

/-- 43_curvepoint.md R170: PSETA off the curve raises PointNotOnCurve; on it, it writes (x, y, 1, x*y), a valid curve
point if x and y are canonical. -/
def Obligations.CheckedPointConstruction : Prop :=
  ∀ (s : State) (d : PReg) (a b : EReg),
    let x := s.e[a]
    let y := s.e[b]
    let onCurve := eadd (eneg (emul x x)) (emul y y) = eadd ⟨1, 0⟩ (emul (emul curveD (emul x x)) (emul y y))
    (encode (.pseta d a b)).toNat = wordR 0x38 d a b 0 0
      ∧ (¬onCurve → exec (.pseta d a b) s = .next (raised s (.pseta d a b) 2))
      ∧ (onCurve → exec (.pseta d a b) s
          = .next { s with p := s.p.set d ⟨x, y, ⟨1, 0⟩, emul x y⟩, result := 0, running := none })
      ∧ (onCurve → Fe2Canonical x → Fe2Canonical y → GoodPoint ⟨x, y, ⟨1, 0⟩, emul x y⟩)

/-- 43_curvepoint.md R173, R174: PPHI and PPSI write PHI(P[a]) and PSI(P[a]) where the formulas give Z other than
(0, 0), with X*Y = Z*T; O, whatever valid tuple holds it, is not exceptional, and of it they give O. PHI and PSI are
the candidate instances (log entry 1). -/
def Obligations.EndomorphismsCompleteOffExceptionalPoints : Prop :=
  ∀ (s : State) (d a : PReg),
    ((encode (.pphi d a)).toNat = wordR 0x3A d a 0 0 0 ∧ (encode (.ppsi d a)).toNat = wordR 0x3B d a 0 0 0)
      ∧ ((phi s.p[a]).Z ≠ ⟨0, 0⟩ → ∃ R : Point,
        exec (.pphi d a) s = .next { s with p := s.p.set d R, result := 0, running := none }
          ∧ R = phi s.p[a] ∧ R.Z ≠ ⟨0, 0⟩ ∧ emul R.X R.Y = emul R.Z R.T)
      ∧ ((psi s.p[a]).Z ≠ ⟨0, 0⟩ → ∃ R : Point,
        exec (.ppsi d a) s = .next { s with p := s.p.set d R, result := 0, running := none }
          ∧ R = psi s.p[a] ∧ R.Z ≠ ⟨0, 0⟩ ∧ emul R.X R.Y = emul R.Z R.T)
      ∧ (GoodPoint s.p[a] → sameAffine s.p[a] Point.neutral = true →
        (phi s.p[a]).Z ≠ ⟨0, 0⟩ ∧ sameAffine (phi s.p[a]) Point.neutral = true
          ∧ (psi s.p[a]).Z ≠ ⟨0, 0⟩ ∧ sameAffine (psi s.p[a]) Point.neutral = true)

/-- 43_curvepoint.md R161: no output of PAFFX, PAFFY, PENC, PONC or PEQ changes when a point's tuple is scaled by c
other than 0. -/
def Obligations.OnlyTheAffinePointShows : Prop :=
  ∀ (s t : State) (a : PReg) (c : Fe2) (i : Instr), Fe2Canonical c → c ≠ ⟨0, 0⟩ → PointCanonical s.p[a] →
    s.p[a].Z ≠ ⟨0, 0⟩ → (∀ b : PReg, PointCanonical s.p[b]) →
    ((∃ d, i = .paffx d a) ∨ (∃ d, i = .paffy d a) ∨ i = .penc a ∨ i = .ponc a ∨ (∃ b, i = .peq a b)
      ∨ ∃ b, i = .peq b a) →
    exec i s = .next t →
      exec i { s with p := s.p.set a (scalePoint c s.p[a]) }
        = .next { t with p := s.p.set a (scalePoint c s.p[a]) }

/-! Scalars. -/

/-- 44_scalar.md R190, R191: KFROMB takes any 32-byte string, KTOB writes the 32 bytes of K[a]. -/
def Obligations.ScalarBytes : Prop :=
  (∀ (s : State) (d : KReg), (encode (.kfromb d)).toNat = wordR 0x40 d 0 0 0 0
      ∧ (s.blen ≠ 32 → exec (.kfromb d) s = .next (raised s (.kfromb d) 3))
      ∧ (s.blen = 32 → ∃ v : Scalar, v.toNat = memValue s.buf 0 32
        ∧ exec (.kfromb d) s = .next { s with k := s.k.set d v, result := 0, running := none }))
    ∧ ∀ (s : State) (a : KReg), (encode (.ktob a)).toNat = wordR 0x41 0 a 0 0 0
      ∧ ∃ m, exec (.ktob a) s = .next { s with buf := m, blen := 32, result := 0, running := none }
        ∧ WroteString s.buf m 32 s.k[a].toNat

/-- 44_scalar.md R193: KRED takes 32 or 64 bytes and leaves the exact remainder modulo ORDER_N, the candidate (log
entry 1). -/
def Obligations.ScalarReduction : Prop :=
  ∀ (s : State) (d : KReg), (encode (.kred d)).toNat = wordR 0x42 d 0 0 0 0
    ∧ (s.blen ≠ 32 → s.blen ≠ 64 → exec (.kred d) s = .next (raised s (.kred d) 3))
    ∧ ∀ n, (n = 32 ∨ n = 64) → s.blen.toNat = n →
      ∃ v : Scalar, v.toNat < orderN ∧ v.toNat ≡ memValue s.buf 0 n [MOD orderN]
        ∧ exec (.kred d) s = .next { s with k := s.k.set d v, result := 0, running := none }

/-- 44_scalar.md R194 with the three requirements of R195: DECOMP puts in Q, for every 256-bit k, four lanes with
a1 + a2*LAMBDA_PHI + a3*LAMBDA_PSI + a4*LAMBDA_PHI*LAMBDA_PSI = k (mod N), each in [0, 2^64), a1 odd; QV <- 1; nothing
else changes. The parameters are the candidates (log entry 1). -/
def Obligations.DecompositionIsCongruentAndShort : Prop :=
  ∀ (s : State) (a : KReg), (encode (.decomp a)).toNat = wordR 0x43 0 a 0 0 0 ∧ ∃ q : Quad,
    exec (.decomp a) s = .next { s with q := q, qv := true, result := 0, running := none }
      ∧ (q.a1.toInt + q.a2.toInt * lambdaPhi + q.a3.toInt * lambdaPsi + q.a4.toInt * lambdaPhi * lambdaPsi)
        ≡ s.k[a].toNat [ZMOD orderN]
      ∧ (0 ≤ q.a1.toInt ∧ q.a1.toInt < 2 ^ 64) ∧ (0 ≤ q.a2.toInt ∧ q.a2.toInt < 2 ^ 64)
      ∧ (0 ≤ q.a3.toInt ∧ q.a3.toInt < 2 ^ 64) ∧ (0 ≤ q.a4.toInt ∧ q.a4.toInt < 2 ^ 64) ∧ q.a1.toInt % 2 = 1

/-- 44_scalar.md R198 with the identities of R199: with QV = 1 RECODE writes the digits and DV <- 1; from non-negative
lanes and an odd a1 (the domain of R199; other digits are free values, log entry 8) they sum up to the four lanes, the
top digit is not negated and the one below is; while QV = 0 it raises NotReady. -/
def Obligations.RecodingRepresentsTheLanes : Prop :=
  ∀ s : State, (encode .recode).toNat = wordR 0x45 0 0 0 0 0
    ∧ (s.qv = false → exec .recode s = .next (raised s .recode 6))
    ∧ (s.qv = true → ∃ dg : Vector Digit 65,
      exec .recode s = .next { s with dig := dg, dv := true, result := 0, running := none }
        ∧ (0 ≤ s.q.a1.toInt → 0 ≤ s.q.a2.toInt → 0 ≤ s.q.a3.toInt → 0 ≤ s.q.a4.toInt → s.q.a1.toInt % 2 = 1 →
          digitSum dg (fun _ => 1) = s.q.a1.toInt ∧ digitSum dg (fun u => u.val % 2) = s.q.a2.toInt
            ∧ digitSum dg (fun u => u.val / 2 % 2) = s.q.a3.toInt ∧ digitSum dg (fun u => u.val / 4) = s.q.a4.toInt
            ∧ dg[64].neg = false ∧ dg[63].neg = true))

/-- 44_scalar.md R197, R200: QTOB writes the four lanes as 128-bit two's complement and BLEN = 64, DTOB the 65 digit
bytes and BLEN = 65; while QV = 0 or DV = 0 they raise NotReady. -/
def Obligations.QuadAndDigitBytes : Prop :=
  ∀ s : State, ((encode .qtob).toNat = wordR 0x44 0 0 0 0 0 ∧ (encode .dtob).toNat = wordR 0x46 0 0 0 0 0)
    ∧ (s.qv = false → exec .qtob s = .next (raised s .qtob 6))
    ∧ (s.dv = false → exec .dtob s = .next (raised s .dtob 6))
    ∧ (s.qv = true → ∃ m, exec .qtob s = .next { s with buf := m, blen := 64, result := 0, running := none }
      ∧ (memValue m 0 16 : Int) = s.q.a1.toInt % 2 ^ 128 ∧ (memValue m 16 16 : Int) = s.q.a2.toInt % 2 ^ 128
      ∧ (memValue m 32 16 : Int) = s.q.a3.toInt % 2 ^ 128 ∧ (memValue m 48 16 : Int) = s.q.a4.toInt % 2 ^ 128
      ∧ ∀ a, 64 ≤ a → Memory.read m a = Memory.read s.buf a)
    ∧ (s.dv = true → ∃ m, exec .dtob s = .next { s with buf := m, blen := 65, result := 0, running := none }
      ∧ (∀ i : Fin 65, (Memory.read m i).toNat = 128 * s.dig[i].neg.toNat + s.dig[i].index.val)
      ∧ ∀ a, 65 ≤ a → Memory.read m a = Memory.read s.buf a)

/-! Multiplier. -/

/-- 45_multiplier.md R220, R221: of a point that is not exceptional, TBUILD writes the eight entries P + u0*PHI(P) +
u1*PSI(P) + u2*PSI(PHI(P)), as the tuples that the spec's order of additions gives (log entry 6), and TV <- 1. PHI and
PSI are the candidates (log entry 1). -/
def Obligations.TableHoldsTheEightCombinations : Prop :=
  ∀ (s : State) (a : PReg), (encode (.tbuild a)).toNat = wordR 0x50 0 a 0 0 0
    ∧ (NotExceptional s.p[a] → ∃ tb : Vector Point 8,
      exec (.tbuild a) s = .next { s with t := tb, tv := true, result := 0, running := none }
        ∧ tb[0] = s.p[a] ∧ tb[1] = padd tb[0] (phi s.p[a]) ∧ tb[2] = padd tb[0] (psi s.p[a])
        ∧ tb[3] = padd tb[1] (psi s.p[a]) ∧ tb[4] = padd tb[0] (psi (phi s.p[a]))
        ∧ tb[5] = padd tb[1] (psi (phi s.p[a])) ∧ tb[6] = padd tb[2] (psi (phi s.p[a]))
        ∧ tb[7] = padd tb[3] (psi (phi s.p[a])))

/-- 45_multiplier.md R222, R223: TRD copies T[u], TSEL copies T[v] or its negative by digit i = (s, v); NotReady while
the valid bits are 0; an imm8 out of range (no legal word) raises IllegalCommand (log entry 12). -/
def Obligations.TableEntriesAreRead : Prop :=
  (∀ (s : State) (d : PReg) (u : BitVec 8), (encode (.trd d u)).toNat = wordI 0x51 d u.toNat
      ∧ (7 < u.toNat → exec (.trd d u) s = .next (raised s (.trd d u) 5))
      ∧ (u.toNat ≤ 7 → s.tv = false → exec (.trd d u) s = .next (raised s (.trd d u) 6))
      ∧ ∀ h : u.toNat < 8, s.tv = true →
        exec (.trd d u) s = .next { s with p := s.p.set d s.t[u.toNat], result := 0, running := none })
    ∧ ∀ (s : State) (d : PReg) (i : BitVec 8), (encode (.tsel d i)).toNat = wordI 0x52 d i.toNat
      ∧ (64 < i.toNat → exec (.tsel d i) s = .next (raised s (.tsel d i) 5))
      ∧ (i.toNat ≤ 64 → (s.tv = false ∨ s.dv = false) → exec (.tsel d i) s = .next (raised s (.tsel d i) 6))
      ∧ ∀ h : i.toNat < 65, s.tv = true → s.dv = true →
        exec (.tsel d i) s = .next { s with
          p := s.p.set d (if s.dig[i.toNat].neg then pneg s.t[s.dig[i.toNat].index] else s.t[s.dig[i.toNat].index]),
          result := 0, running := none }

/-- 45_multiplier.md R225, R226: of a point that is not exceptional, SMUL writes P[d], Q, DIG, T and the valid bits,
and they are what DECOMP, RECODE, TBUILD, TSEL of digit 64 and 64 turns of PDBL, TSEL, PADD leave when the host drives
the multiplication by hand in P[d] and a spare register P[x]; the point is the same tuple, not only the same affine
point (log entry 6). -/
def Obligations.MultiplicationEqualsItsParts : Prop :=
  ∀ (s : State) (d x : PReg) (a : KReg) (b : PReg), (encode (.smul d a b)).toNat = wordR 0x53 d a b 0 0
    ∧ (x ≠ d → NotExceptional s.p[b] → ∃ u : State,
      execAll ([.decomp a, .recode, .tbuild b, .tsel d 64] ++ loopByHand d x 64) s = .next u
      ∧ u.result = 0 ∧ u.qv = true ∧ u.dv = true ∧ u.tv = true
      ∧ exec (.smul d a b) s = .next { s with
          p := s.p.set d u.p[d], q := u.q, dig := u.dig, t := u.t, qv := true, dv := true, tv := true, result := 0,
          running := none })

/-- 45_multiplier.md R227, R228: of points that are not exceptional, DSMUL leaves what the second SMUL leaves, with the
sum of the two products in P[d]; DSMULG the same with [K[a] mod N]G as the first product, and GTV <- 1. The method of the
first product of DSMULG is the model's choice (log entry 7); what `multiple` computes is MultipleIsDoubleAndAdd. -/
def Obligations.DoubleMultiplicationAddsTheProducts : Prop :=
  (∀ (s : State) (d : PReg) (a : KReg) (b : PReg) (c : KReg) (e : PReg),
      (encode (.dsmul d a b c e)).toNat = wordR 0x54 d a b c e
      ∧ (NotExceptional s.p[b] → NotExceptional s.p[e] → ∃ t1 t2 : State,
        exec (.smul d a b) s = .next t1 ∧ exec (.smul d c e) s = .next t2
        ∧ t1.result = 0 ∧ t2.result = 0
        ∧ exec (.dsmul d a b c e) s = .next { t2 with p := s.p.set d (padd t1.p[d] t2.p[d]) }))
    ∧ ∀ (s : State) (d : PReg) (a b : KReg) (c : PReg), (encode (.dsmulg d a b c)).toNat = wordR 0x55 d a b c 0
      ∧ (NotExceptional s.p[c] → ∃ t2 : State, exec (.smul d b c) s = .next t2 ∧ t2.result = 0
        ∧ exec (.dsmulg d a b c) s = .next { t2 with
            p := s.p.set d (padd (multiple generator 256 (s.k[a].toNat % orderN)) t2.p[d]), gtv := true })

/-- 43_curvepoint.md R176: the six commands that evaluate PHI or PSI raise ExceptionalPoint on an exceptional point
and write nothing else. PHI and PSI are the candidates (log entry 1). -/
def Obligations.ExceptionalPointsRaise : Prop :=
  ∀ (s : State) (d a : PReg),
    ((phi s.p[a]).Z = ⟨0, 0⟩ → exec (.pphi d a) s = .next (raised s (.pphi d a) 7))
      ∧ ((psi s.p[a]).Z = ⟨0, 0⟩ → exec (.ppsi d a) s = .next (raised s (.ppsi d a) 7))
      ∧ (¬NotExceptional s.p[a] → exec (.tbuild a) s = .next (raised s (.tbuild a) 7)
        ∧ (∀ k, exec (.smul d k a) s = .next (raised s (.smul d k a) 7))
        ∧ (∀ k k', exec (.dsmulg d k k' a) s = .next (raised s (.dsmulg d k k' a) 7))
        ∧ ∀ k b k', exec (.dsmul d k a k' b) s = .next (raised s (.dsmul d k a k' b) 7)
          ∧ exec (.dsmul d k b k' a) s = .next (raised s (.dsmul d k b k' a) 7))

/-- 45_multiplier.md R229: P = O, in whatever valid tuple, gives O for every k; the loop does not special-case it. The
parameters are the candidates (log entry 1). -/
def Obligations.MultipleOfIdentityIsIdentity : Prop :=
  ∀ (s : State) (d : PReg) (a : KReg) (b : PReg), GoodPoint s.p[b] →
    sameAffine s.p[b] Point.neutral = true → ∃ t : State, exec (.smul d a b) s = .next t ∧ t.result = 0 ∧ GoodPoint t.p[d]
      ∧ sameAffine t.p[d] Point.neutral = true

/-! Codec. -/

/-- 46_codec.md R253: PENC writes y.re, then y.im with XSIGN(x) in the top bit, 32 bytes, for the affine x and y; on Z
= (0, 0) it is fatal and writes no byte. XSIGN is the candidate (log entry 1). -/
def Obligations.PointEncoding : Prop :=
  ∀ (s : State) (a : PReg), (encode (.penc a)).toNat = wordR 0x60 0 a 0 0 0
    ∧ (s.p[a].Z = ⟨0, 0⟩ → exec (.penc a) s = .next (raisedFatal s (.penc a)))
    ∧ (s.p[a].Z ≠ ⟨0, 0⟩ → ∃ m, exec (.penc a) s = .next { s with buf := m, blen := 32, result := 0, running := none }
      ∧ memValue m 0 16 = (emul s.p[a].Y (einv s.p[a].Z)).re.toNat
      ∧ memValue m 16 16 = (emul s.p[a].Y (einv s.p[a].Z)).im.toNat
        + 2 ^ 127 * (xsign (emul s.p[a].X (einv s.p[a].Z))).toNat
      ∧ ∀ k, 32 ≤ k → Memory.read m k = Memory.read s.buf k)

/-- 46_codec.md R254, R255: the encoding of every affine point of the curve decodes to that point: PDEC writes (x, y,
1, x*y) and nothing else. CURVE_D and XSIGN are the candidates (log entry 1), the square root is that of log entry 9.
-/
def Obligations.DecodingAnEncodedPointGivesIt : Prop :=
  ∀ (s : State) (d : PReg) (x y : Fe2), Fe2Canonical x → Fe2Canonical y → affineOnCurve x y = true →
    s.blen = 32 → memValue s.buf 0 32 = y.re.toNat + 2 ^ 128 * y.im.toNat + 2 ^ 255 * (xsign x).toNat →
      exec (.pdec d) s = .next { s with p := s.p.set d ⟨x, y, ⟨1, 0⟩, emul x y⟩, result := 0, running := none }

/-- 46_codec.md R254, R255: PDEC reports a wrong length, then a non-canonical y, then PointNotOnCurve for a canonical y
with no x of the wanted sign on the curve (no square root, or x = 0 with sign bit 1); on every 32-byte string it ends
with RESULT in {0, 1, 2}, and a decoded point is valid and encodes to the string it came from. CURVE_D and XSIGN are
the candidates (log entry 1). -/
def Obligations.DecodedPointsAreValidAndEncodeBack : Prop :=
  ∀ (s : State) (d : PReg), (encode (.pdec d)).toNat = wordR 0x61 d 0 0 0 0
    ∧ (s.blen ≠ 32 → exec (.pdec d) s = .next (raised s (.pdec d) 3))
    ∧ (s.blen = 32 → (prime ≤ memValue s.buf 0 16 ∨ prime ≤ memValue s.buf 16 16 % 2 ^ 127) →
      exec (.pdec d) s = .next (raised s (.pdec d) 1))
    ∧ (∀ y : Fe2, s.blen = 32 → Fe2Canonical y → memValue s.buf 0 16 = y.re.toNat →
      memValue s.buf 16 16 % 2 ^ 127 = y.im.toNat →
      (∀ x : Fe2, Fe2Canonical x → affineOnCurve x y = true → (xsign x).toNat ≠ memValue s.buf 16 16 / 2 ^ 127) →
        exec (.pdec d) s = .next (raised s (.pdec d) 2))
    ∧ (s.blen = 32 → ∃ t, exec (.pdec d) s = .next t ∧ t.halt = s.halt
      ∧ (t.result = 0 ∨ t.result = 1 ∨ t.result = 2)
      ∧ (t.result = 0 → GoodPoint t.p[d]
        ∧ ∃ u, exec (.penc d) t = .next u ∧ u.result = 0 ∧ u.blen = 32
          ∧ ∀ k, k < 32 → Memory.read u.buf k = Memory.read s.buf k))

/-! Pseudo-instructions. -/

/-- 30_encoding.md R101: the expansions of FMOV, EMOV and PMOV are exact copies, PISID tests for O, PAFF gives both
affine coordinates, EDIV multiplies by the inverse; stated for canonical registers, as every run has (10_state.md R27). -/
def Obligations.PseudoInstructionsDoWhatTheirNotesSay : Prop :=
  ∀ s : State, s.Canonical →
    (∀ d a, execAll (Pseudo.fmov d a).expand s = .next { s with f := s.f.set d s.f[a], result := 0, running := none })
      ∧ (∀ d a, execAll (Pseudo.emov d a).expand s
        = .next { s with e := s.e.set d s.e[a], result := 0, running := none })
      ∧ (∀ d a, execAll (Pseudo.pmov d a).expand s
        = .next { s with p := s.p.set d s.p[a], result := 0, running := none })
      ∧ (∀ a b, a ≠ b → execAll (Pseudo.pisid a b).expand s = .next { s with
          p := s.p.set b Point.neutral, flag := sameAffine s.p[a] Point.neutral, result := 0, running := none })
      ∧ (∀ x y a, x ≠ y → s.p[a].Z ≠ ⟨0, 0⟩ → execAll (Pseudo.paff x y a).expand s = .next { s with
          e := (s.e.set x (affineX s.p[a])).set y (affineY s.p[a]), result := 0, running := none })
      ∧ ∀ d a b, d ≠ a → s.e[b] ≠ ⟨0, 0⟩ → execAll (Pseudo.ediv d a b).expand s = .next { s with
          e := s.e.set d (emul s.e[a] (einv s.e[b])), result := 0, running := none }

/-! The product that DSMULG's first point is. -/

/-- `multiple P 256 n` is [n]P for a valid point P and n < 2^256 (00_scope.md section 5): valid, [0]P = O, [1]P = P,
[2n]P is the double of [n]P, and [2n+1]P that double plus P. Each equation is ~, of points. CURVE_D is the candidate
(log entry 1); that the first product of DSMULG (45_multiplier.md R228) is computed by this operation is the model's
choice (log entry 7). -/
def Obligations.MultipleIsDoubleAndAdd : Prop :=
  ∀ P : Point, GoodPoint P →
    (∀ n, n < 2 ^ 256 → GoodPoint (multiple P 256 n))
      ∧ sameAffine (multiple P 256 0) Point.neutral = true ∧ sameAffine (multiple P 256 1) P = true
      ∧ ∀ n, n < 2 ^ 255 → sameAffine (multiple P 256 (2 * n)) (pdbl (multiple P 256 n)) = true
        ∧ sameAffine (multiple P 256 (2 * n + 1)) (padd (pdbl (multiple P 256 n)) P) = true
end

