-- ==== Sys2Proof/Laws/State.lean ====
section
/-! SUPPORT. One lemma per field per update of State, each true by rfl, so that no proof unfolds an update. -/

namespace Sys2Proof.Machine

/-! State.complete. -/

@[simp] theorem State.complete_f (s : State) : (s.complete).f = s.f := rfl
@[simp] theorem State.complete_e (s : State) : (s.complete).e = s.e := rfl
@[simp] theorem State.complete_p (s : State) : (s.complete).p = s.p := rfl
@[simp] theorem State.complete_k (s : State) : (s.complete).k = s.k := rfl
@[simp] theorem State.complete_q (s : State) : (s.complete).q = s.q := rfl
@[simp] theorem State.complete_dig (s : State) : (s.complete).dig = s.dig := rfl
@[simp] theorem State.complete_t (s : State) : (s.complete).t = s.t := rfl
@[simp] theorem State.complete_buf (s : State) : (s.complete).buf = s.buf := rfl
@[simp] theorem State.complete_blen (s : State) : (s.complete).blen = s.blen := rfl
@[simp] theorem State.complete_flag (s : State) : (s.complete).flag = s.flag := rfl
@[simp] theorem State.complete_halt (s : State) : (s.complete).halt = s.halt := rfl
@[simp] theorem State.complete_ovr (s : State) : (s.complete).ovr = s.ovr := rfl
@[simp] theorem State.complete_gtv (s : State) : (s.complete).gtv = s.gtv := rfl
@[simp] theorem State.complete_qv (s : State) : (s.complete).qv = s.qv := rfl
@[simp] theorem State.complete_dv (s : State) : (s.complete).dv = s.dv := rfl
@[simp] theorem State.complete_tv (s : State) : (s.complete).tv = s.tv := rfl
@[simp] theorem State.complete_running (s : State) : (s.complete).running = none := rfl
@[simp] theorem State.complete_result (s : State) : (s.complete).result = 0 := rfl
@[simp] theorem State.complete_errcmd (s : State) : (s.complete).errcmd = s.errcmd := rfl
@[simp] theorem State.complete_inbox (s : State) : (s.complete).inbox = s.inbox := rfl
@[simp] theorem State.complete_readData (s : State) : (s.complete).readData = s.readData := rfl
@[simp] theorem State.complete_freeCount (s : State) : (s.complete).freeCount = s.freeCount := rfl

/-! State.raise. -/

@[simp] theorem State.raise_f (s : State) (c : ErrorCode) (w : Word) : (s.raise c w).f = s.f := rfl
@[simp] theorem State.raise_e (s : State) (c : ErrorCode) (w : Word) : (s.raise c w).e = s.e := rfl
@[simp] theorem State.raise_p (s : State) (c : ErrorCode) (w : Word) : (s.raise c w).p = s.p := rfl
@[simp] theorem State.raise_k (s : State) (c : ErrorCode) (w : Word) : (s.raise c w).k = s.k := rfl
@[simp] theorem State.raise_q (s : State) (c : ErrorCode) (w : Word) : (s.raise c w).q = s.q := rfl
@[simp] theorem State.raise_dig (s : State) (c : ErrorCode) (w : Word) : (s.raise c w).dig = s.dig := rfl
@[simp] theorem State.raise_t (s : State) (c : ErrorCode) (w : Word) : (s.raise c w).t = s.t := rfl
@[simp] theorem State.raise_buf (s : State) (c : ErrorCode) (w : Word) : (s.raise c w).buf = s.buf := rfl
@[simp] theorem State.raise_blen (s : State) (c : ErrorCode) (w : Word) : (s.raise c w).blen = s.blen := rfl
@[simp] theorem State.raise_flag (s : State) (c : ErrorCode) (w : Word) : (s.raise c w).flag = s.flag := rfl
@[simp] theorem State.raise_halt (s : State) (c : ErrorCode) (w : Word) : (s.raise c w).halt = (s.halt || decide (c = .zeroInversion)) := rfl
@[simp] theorem State.raise_ovr (s : State) (c : ErrorCode) (w : Word) : (s.raise c w).ovr = s.ovr := rfl
@[simp] theorem State.raise_gtv (s : State) (c : ErrorCode) (w : Word) : (s.raise c w).gtv = s.gtv := rfl
@[simp] theorem State.raise_qv (s : State) (c : ErrorCode) (w : Word) : (s.raise c w).qv = s.qv := rfl
@[simp] theorem State.raise_dv (s : State) (c : ErrorCode) (w : Word) : (s.raise c w).dv = s.dv := rfl
@[simp] theorem State.raise_tv (s : State) (c : ErrorCode) (w : Word) : (s.raise c w).tv = s.tv := rfl
@[simp] theorem State.raise_running (s : State) (c : ErrorCode) (w : Word) : (s.raise c w).running = none := rfl
@[simp] theorem State.raise_result (s : State) (c : ErrorCode) (w : Word) : (s.raise c w).result = c.code := rfl
@[simp] theorem State.raise_errcmd (s : State) (c : ErrorCode) (w : Word) : (s.raise c w).errcmd = w := rfl
@[simp] theorem State.raise_inbox (s : State) (c : ErrorCode) (w : Word) : (s.raise c w).inbox = s.inbox := rfl
@[simp] theorem State.raise_readData (s : State) (c : ErrorCode) (w : Word) : (s.raise c w).readData = s.readData := rfl
@[simp] theorem State.raise_freeCount (s : State) (c : ErrorCode) (w : Word) : (s.raise c w).freeCount = s.freeCount := rfl

/-! State.wrF. -/

@[simp] theorem State.wrF_f (s : State) (r : FReg) (v : Fe) : (s.wrF r v).f = s.f.set r v := rfl
@[simp] theorem State.wrF_e (s : State) (r : FReg) (v : Fe) : (s.wrF r v).e = s.e := rfl
@[simp] theorem State.wrF_p (s : State) (r : FReg) (v : Fe) : (s.wrF r v).p = s.p := rfl
@[simp] theorem State.wrF_k (s : State) (r : FReg) (v : Fe) : (s.wrF r v).k = s.k := rfl
@[simp] theorem State.wrF_q (s : State) (r : FReg) (v : Fe) : (s.wrF r v).q = s.q := rfl
@[simp] theorem State.wrF_dig (s : State) (r : FReg) (v : Fe) : (s.wrF r v).dig = s.dig := rfl
@[simp] theorem State.wrF_t (s : State) (r : FReg) (v : Fe) : (s.wrF r v).t = s.t := rfl
@[simp] theorem State.wrF_buf (s : State) (r : FReg) (v : Fe) : (s.wrF r v).buf = s.buf := rfl
@[simp] theorem State.wrF_blen (s : State) (r : FReg) (v : Fe) : (s.wrF r v).blen = s.blen := rfl
@[simp] theorem State.wrF_flag (s : State) (r : FReg) (v : Fe) : (s.wrF r v).flag = s.flag := rfl
@[simp] theorem State.wrF_halt (s : State) (r : FReg) (v : Fe) : (s.wrF r v).halt = s.halt := rfl
@[simp] theorem State.wrF_ovr (s : State) (r : FReg) (v : Fe) : (s.wrF r v).ovr = s.ovr := rfl
@[simp] theorem State.wrF_gtv (s : State) (r : FReg) (v : Fe) : (s.wrF r v).gtv = s.gtv := rfl
@[simp] theorem State.wrF_qv (s : State) (r : FReg) (v : Fe) : (s.wrF r v).qv = s.qv := rfl
@[simp] theorem State.wrF_dv (s : State) (r : FReg) (v : Fe) : (s.wrF r v).dv = s.dv := rfl
@[simp] theorem State.wrF_tv (s : State) (r : FReg) (v : Fe) : (s.wrF r v).tv = s.tv := rfl
@[simp] theorem State.wrF_running (s : State) (r : FReg) (v : Fe) : (s.wrF r v).running = s.running := rfl
@[simp] theorem State.wrF_result (s : State) (r : FReg) (v : Fe) : (s.wrF r v).result = s.result := rfl
@[simp] theorem State.wrF_errcmd (s : State) (r : FReg) (v : Fe) : (s.wrF r v).errcmd = s.errcmd := rfl
@[simp] theorem State.wrF_inbox (s : State) (r : FReg) (v : Fe) : (s.wrF r v).inbox = s.inbox := rfl
@[simp] theorem State.wrF_readData (s : State) (r : FReg) (v : Fe) : (s.wrF r v).readData = s.readData := rfl
@[simp] theorem State.wrF_freeCount (s : State) (r : FReg) (v : Fe) : (s.wrF r v).freeCount = s.freeCount := rfl

/-! State.wrE. -/

@[simp] theorem State.wrE_f (s : State) (r : EReg) (v : Fe2) : (s.wrE r v).f = s.f := rfl
@[simp] theorem State.wrE_e (s : State) (r : EReg) (v : Fe2) : (s.wrE r v).e = s.e.set r v := rfl
@[simp] theorem State.wrE_p (s : State) (r : EReg) (v : Fe2) : (s.wrE r v).p = s.p := rfl
@[simp] theorem State.wrE_k (s : State) (r : EReg) (v : Fe2) : (s.wrE r v).k = s.k := rfl
@[simp] theorem State.wrE_q (s : State) (r : EReg) (v : Fe2) : (s.wrE r v).q = s.q := rfl
@[simp] theorem State.wrE_dig (s : State) (r : EReg) (v : Fe2) : (s.wrE r v).dig = s.dig := rfl
@[simp] theorem State.wrE_t (s : State) (r : EReg) (v : Fe2) : (s.wrE r v).t = s.t := rfl
@[simp] theorem State.wrE_buf (s : State) (r : EReg) (v : Fe2) : (s.wrE r v).buf = s.buf := rfl
@[simp] theorem State.wrE_blen (s : State) (r : EReg) (v : Fe2) : (s.wrE r v).blen = s.blen := rfl
@[simp] theorem State.wrE_flag (s : State) (r : EReg) (v : Fe2) : (s.wrE r v).flag = s.flag := rfl
@[simp] theorem State.wrE_halt (s : State) (r : EReg) (v : Fe2) : (s.wrE r v).halt = s.halt := rfl
@[simp] theorem State.wrE_ovr (s : State) (r : EReg) (v : Fe2) : (s.wrE r v).ovr = s.ovr := rfl
@[simp] theorem State.wrE_gtv (s : State) (r : EReg) (v : Fe2) : (s.wrE r v).gtv = s.gtv := rfl
@[simp] theorem State.wrE_qv (s : State) (r : EReg) (v : Fe2) : (s.wrE r v).qv = s.qv := rfl
@[simp] theorem State.wrE_dv (s : State) (r : EReg) (v : Fe2) : (s.wrE r v).dv = s.dv := rfl
@[simp] theorem State.wrE_tv (s : State) (r : EReg) (v : Fe2) : (s.wrE r v).tv = s.tv := rfl
@[simp] theorem State.wrE_running (s : State) (r : EReg) (v : Fe2) : (s.wrE r v).running = s.running := rfl
@[simp] theorem State.wrE_result (s : State) (r : EReg) (v : Fe2) : (s.wrE r v).result = s.result := rfl
@[simp] theorem State.wrE_errcmd (s : State) (r : EReg) (v : Fe2) : (s.wrE r v).errcmd = s.errcmd := rfl
@[simp] theorem State.wrE_inbox (s : State) (r : EReg) (v : Fe2) : (s.wrE r v).inbox = s.inbox := rfl
@[simp] theorem State.wrE_readData (s : State) (r : EReg) (v : Fe2) : (s.wrE r v).readData = s.readData := rfl
@[simp] theorem State.wrE_freeCount (s : State) (r : EReg) (v : Fe2) : (s.wrE r v).freeCount = s.freeCount := rfl

/-! State.wrP. -/

@[simp] theorem State.wrP_f (s : State) (r : PReg) (v : Point) : (s.wrP r v).f = s.f := rfl
@[simp] theorem State.wrP_e (s : State) (r : PReg) (v : Point) : (s.wrP r v).e = s.e := rfl
@[simp] theorem State.wrP_p (s : State) (r : PReg) (v : Point) : (s.wrP r v).p = s.p.set r v := rfl
@[simp] theorem State.wrP_k (s : State) (r : PReg) (v : Point) : (s.wrP r v).k = s.k := rfl
@[simp] theorem State.wrP_q (s : State) (r : PReg) (v : Point) : (s.wrP r v).q = s.q := rfl
@[simp] theorem State.wrP_dig (s : State) (r : PReg) (v : Point) : (s.wrP r v).dig = s.dig := rfl
@[simp] theorem State.wrP_t (s : State) (r : PReg) (v : Point) : (s.wrP r v).t = s.t := rfl
@[simp] theorem State.wrP_buf (s : State) (r : PReg) (v : Point) : (s.wrP r v).buf = s.buf := rfl
@[simp] theorem State.wrP_blen (s : State) (r : PReg) (v : Point) : (s.wrP r v).blen = s.blen := rfl
@[simp] theorem State.wrP_flag (s : State) (r : PReg) (v : Point) : (s.wrP r v).flag = s.flag := rfl
@[simp] theorem State.wrP_halt (s : State) (r : PReg) (v : Point) : (s.wrP r v).halt = s.halt := rfl
@[simp] theorem State.wrP_ovr (s : State) (r : PReg) (v : Point) : (s.wrP r v).ovr = s.ovr := rfl
@[simp] theorem State.wrP_gtv (s : State) (r : PReg) (v : Point) : (s.wrP r v).gtv = s.gtv := rfl
@[simp] theorem State.wrP_qv (s : State) (r : PReg) (v : Point) : (s.wrP r v).qv = s.qv := rfl
@[simp] theorem State.wrP_dv (s : State) (r : PReg) (v : Point) : (s.wrP r v).dv = s.dv := rfl
@[simp] theorem State.wrP_tv (s : State) (r : PReg) (v : Point) : (s.wrP r v).tv = s.tv := rfl
@[simp] theorem State.wrP_running (s : State) (r : PReg) (v : Point) : (s.wrP r v).running = s.running := rfl
@[simp] theorem State.wrP_result (s : State) (r : PReg) (v : Point) : (s.wrP r v).result = s.result := rfl
@[simp] theorem State.wrP_errcmd (s : State) (r : PReg) (v : Point) : (s.wrP r v).errcmd = s.errcmd := rfl
@[simp] theorem State.wrP_inbox (s : State) (r : PReg) (v : Point) : (s.wrP r v).inbox = s.inbox := rfl
@[simp] theorem State.wrP_readData (s : State) (r : PReg) (v : Point) : (s.wrP r v).readData = s.readData := rfl
@[simp] theorem State.wrP_freeCount (s : State) (r : PReg) (v : Point) : (s.wrP r v).freeCount = s.freeCount := rfl

/-! State.wrK. -/

@[simp] theorem State.wrK_f (s : State) (r : KReg) (v : Scalar) : (s.wrK r v).f = s.f := rfl
@[simp] theorem State.wrK_e (s : State) (r : KReg) (v : Scalar) : (s.wrK r v).e = s.e := rfl
@[simp] theorem State.wrK_p (s : State) (r : KReg) (v : Scalar) : (s.wrK r v).p = s.p := rfl
@[simp] theorem State.wrK_k (s : State) (r : KReg) (v : Scalar) : (s.wrK r v).k = s.k.set r v := rfl
@[simp] theorem State.wrK_q (s : State) (r : KReg) (v : Scalar) : (s.wrK r v).q = s.q := rfl
@[simp] theorem State.wrK_dig (s : State) (r : KReg) (v : Scalar) : (s.wrK r v).dig = s.dig := rfl
@[simp] theorem State.wrK_t (s : State) (r : KReg) (v : Scalar) : (s.wrK r v).t = s.t := rfl
@[simp] theorem State.wrK_buf (s : State) (r : KReg) (v : Scalar) : (s.wrK r v).buf = s.buf := rfl
@[simp] theorem State.wrK_blen (s : State) (r : KReg) (v : Scalar) : (s.wrK r v).blen = s.blen := rfl
@[simp] theorem State.wrK_flag (s : State) (r : KReg) (v : Scalar) : (s.wrK r v).flag = s.flag := rfl
@[simp] theorem State.wrK_halt (s : State) (r : KReg) (v : Scalar) : (s.wrK r v).halt = s.halt := rfl
@[simp] theorem State.wrK_ovr (s : State) (r : KReg) (v : Scalar) : (s.wrK r v).ovr = s.ovr := rfl
@[simp] theorem State.wrK_gtv (s : State) (r : KReg) (v : Scalar) : (s.wrK r v).gtv = s.gtv := rfl
@[simp] theorem State.wrK_qv (s : State) (r : KReg) (v : Scalar) : (s.wrK r v).qv = s.qv := rfl
@[simp] theorem State.wrK_dv (s : State) (r : KReg) (v : Scalar) : (s.wrK r v).dv = s.dv := rfl
@[simp] theorem State.wrK_tv (s : State) (r : KReg) (v : Scalar) : (s.wrK r v).tv = s.tv := rfl
@[simp] theorem State.wrK_running (s : State) (r : KReg) (v : Scalar) : (s.wrK r v).running = s.running := rfl
@[simp] theorem State.wrK_result (s : State) (r : KReg) (v : Scalar) : (s.wrK r v).result = s.result := rfl
@[simp] theorem State.wrK_errcmd (s : State) (r : KReg) (v : Scalar) : (s.wrK r v).errcmd = s.errcmd := rfl
@[simp] theorem State.wrK_inbox (s : State) (r : KReg) (v : Scalar) : (s.wrK r v).inbox = s.inbox := rfl
@[simp] theorem State.wrK_readData (s : State) (r : KReg) (v : Scalar) : (s.wrK r v).readData = s.readData := rfl
@[simp] theorem State.wrK_freeCount (s : State) (r : KReg) (v : Scalar) : (s.wrK r v).freeCount = s.freeCount := rfl

/-! State.wrQ. -/

@[simp] theorem State.wrQ_f (s : State) (v : Quad) : (s.wrQ v).f = s.f := rfl
@[simp] theorem State.wrQ_e (s : State) (v : Quad) : (s.wrQ v).e = s.e := rfl
@[simp] theorem State.wrQ_p (s : State) (v : Quad) : (s.wrQ v).p = s.p := rfl
@[simp] theorem State.wrQ_k (s : State) (v : Quad) : (s.wrQ v).k = s.k := rfl
@[simp] theorem State.wrQ_q (s : State) (v : Quad) : (s.wrQ v).q = v := rfl
@[simp] theorem State.wrQ_dig (s : State) (v : Quad) : (s.wrQ v).dig = s.dig := rfl
@[simp] theorem State.wrQ_t (s : State) (v : Quad) : (s.wrQ v).t = s.t := rfl
@[simp] theorem State.wrQ_buf (s : State) (v : Quad) : (s.wrQ v).buf = s.buf := rfl
@[simp] theorem State.wrQ_blen (s : State) (v : Quad) : (s.wrQ v).blen = s.blen := rfl
@[simp] theorem State.wrQ_flag (s : State) (v : Quad) : (s.wrQ v).flag = s.flag := rfl
@[simp] theorem State.wrQ_halt (s : State) (v : Quad) : (s.wrQ v).halt = s.halt := rfl
@[simp] theorem State.wrQ_ovr (s : State) (v : Quad) : (s.wrQ v).ovr = s.ovr := rfl
@[simp] theorem State.wrQ_gtv (s : State) (v : Quad) : (s.wrQ v).gtv = s.gtv := rfl
@[simp] theorem State.wrQ_qv (s : State) (v : Quad) : (s.wrQ v).qv = true := rfl
@[simp] theorem State.wrQ_dv (s : State) (v : Quad) : (s.wrQ v).dv = s.dv := rfl
@[simp] theorem State.wrQ_tv (s : State) (v : Quad) : (s.wrQ v).tv = s.tv := rfl
@[simp] theorem State.wrQ_running (s : State) (v : Quad) : (s.wrQ v).running = s.running := rfl
@[simp] theorem State.wrQ_result (s : State) (v : Quad) : (s.wrQ v).result = s.result := rfl
@[simp] theorem State.wrQ_errcmd (s : State) (v : Quad) : (s.wrQ v).errcmd = s.errcmd := rfl
@[simp] theorem State.wrQ_inbox (s : State) (v : Quad) : (s.wrQ v).inbox = s.inbox := rfl
@[simp] theorem State.wrQ_readData (s : State) (v : Quad) : (s.wrQ v).readData = s.readData := rfl
@[simp] theorem State.wrQ_freeCount (s : State) (v : Quad) : (s.wrQ v).freeCount = s.freeCount := rfl

/-! State.wrDig. -/

@[simp] theorem State.wrDig_f (s : State) (v : Vector Digit 65) : (s.wrDig v).f = s.f := rfl
@[simp] theorem State.wrDig_e (s : State) (v : Vector Digit 65) : (s.wrDig v).e = s.e := rfl
@[simp] theorem State.wrDig_p (s : State) (v : Vector Digit 65) : (s.wrDig v).p = s.p := rfl
@[simp] theorem State.wrDig_k (s : State) (v : Vector Digit 65) : (s.wrDig v).k = s.k := rfl
@[simp] theorem State.wrDig_q (s : State) (v : Vector Digit 65) : (s.wrDig v).q = s.q := rfl
@[simp] theorem State.wrDig_dig (s : State) (v : Vector Digit 65) : (s.wrDig v).dig = v := rfl
@[simp] theorem State.wrDig_t (s : State) (v : Vector Digit 65) : (s.wrDig v).t = s.t := rfl
@[simp] theorem State.wrDig_buf (s : State) (v : Vector Digit 65) : (s.wrDig v).buf = s.buf := rfl
@[simp] theorem State.wrDig_blen (s : State) (v : Vector Digit 65) : (s.wrDig v).blen = s.blen := rfl
@[simp] theorem State.wrDig_flag (s : State) (v : Vector Digit 65) : (s.wrDig v).flag = s.flag := rfl
@[simp] theorem State.wrDig_halt (s : State) (v : Vector Digit 65) : (s.wrDig v).halt = s.halt := rfl
@[simp] theorem State.wrDig_ovr (s : State) (v : Vector Digit 65) : (s.wrDig v).ovr = s.ovr := rfl
@[simp] theorem State.wrDig_gtv (s : State) (v : Vector Digit 65) : (s.wrDig v).gtv = s.gtv := rfl
@[simp] theorem State.wrDig_qv (s : State) (v : Vector Digit 65) : (s.wrDig v).qv = s.qv := rfl
@[simp] theorem State.wrDig_dv (s : State) (v : Vector Digit 65) : (s.wrDig v).dv = true := rfl
@[simp] theorem State.wrDig_tv (s : State) (v : Vector Digit 65) : (s.wrDig v).tv = s.tv := rfl
@[simp] theorem State.wrDig_running (s : State) (v : Vector Digit 65) : (s.wrDig v).running = s.running := rfl
@[simp] theorem State.wrDig_result (s : State) (v : Vector Digit 65) : (s.wrDig v).result = s.result := rfl
@[simp] theorem State.wrDig_errcmd (s : State) (v : Vector Digit 65) : (s.wrDig v).errcmd = s.errcmd := rfl
@[simp] theorem State.wrDig_inbox (s : State) (v : Vector Digit 65) : (s.wrDig v).inbox = s.inbox := rfl
@[simp] theorem State.wrDig_readData (s : State) (v : Vector Digit 65) : (s.wrDig v).readData = s.readData := rfl
@[simp] theorem State.wrDig_freeCount (s : State) (v : Vector Digit 65) : (s.wrDig v).freeCount = s.freeCount := rfl

/-! State.wrT. -/

@[simp] theorem State.wrT_f (s : State) (v : Vector Point 8) : (s.wrT v).f = s.f := rfl
@[simp] theorem State.wrT_e (s : State) (v : Vector Point 8) : (s.wrT v).e = s.e := rfl
@[simp] theorem State.wrT_p (s : State) (v : Vector Point 8) : (s.wrT v).p = s.p := rfl
@[simp] theorem State.wrT_k (s : State) (v : Vector Point 8) : (s.wrT v).k = s.k := rfl
@[simp] theorem State.wrT_q (s : State) (v : Vector Point 8) : (s.wrT v).q = s.q := rfl
@[simp] theorem State.wrT_dig (s : State) (v : Vector Point 8) : (s.wrT v).dig = s.dig := rfl
@[simp] theorem State.wrT_t (s : State) (v : Vector Point 8) : (s.wrT v).t = v := rfl
@[simp] theorem State.wrT_buf (s : State) (v : Vector Point 8) : (s.wrT v).buf = s.buf := rfl
@[simp] theorem State.wrT_blen (s : State) (v : Vector Point 8) : (s.wrT v).blen = s.blen := rfl
@[simp] theorem State.wrT_flag (s : State) (v : Vector Point 8) : (s.wrT v).flag = s.flag := rfl
@[simp] theorem State.wrT_halt (s : State) (v : Vector Point 8) : (s.wrT v).halt = s.halt := rfl
@[simp] theorem State.wrT_ovr (s : State) (v : Vector Point 8) : (s.wrT v).ovr = s.ovr := rfl
@[simp] theorem State.wrT_gtv (s : State) (v : Vector Point 8) : (s.wrT v).gtv = s.gtv := rfl
@[simp] theorem State.wrT_qv (s : State) (v : Vector Point 8) : (s.wrT v).qv = s.qv := rfl
@[simp] theorem State.wrT_dv (s : State) (v : Vector Point 8) : (s.wrT v).dv = s.dv := rfl
@[simp] theorem State.wrT_tv (s : State) (v : Vector Point 8) : (s.wrT v).tv = true := rfl
@[simp] theorem State.wrT_running (s : State) (v : Vector Point 8) : (s.wrT v).running = s.running := rfl
@[simp] theorem State.wrT_result (s : State) (v : Vector Point 8) : (s.wrT v).result = s.result := rfl
@[simp] theorem State.wrT_errcmd (s : State) (v : Vector Point 8) : (s.wrT v).errcmd = s.errcmd := rfl
@[simp] theorem State.wrT_inbox (s : State) (v : Vector Point 8) : (s.wrT v).inbox = s.inbox := rfl
@[simp] theorem State.wrT_readData (s : State) (v : Vector Point 8) : (s.wrT v).readData = s.readData := rfl
@[simp] theorem State.wrT_freeCount (s : State) (v : Vector Point 8) : (s.wrT v).freeCount = s.freeCount := rfl

/-! State.wrProduct. -/

@[simp] theorem State.wrProduct_f (s : State) (d : PReg) (A : Point) (r : Product) : (s.wrProduct d A r).f = s.f := rfl
@[simp] theorem State.wrProduct_e (s : State) (d : PReg) (A : Point) (r : Product) : (s.wrProduct d A r).e = s.e := rfl
@[simp] theorem State.wrProduct_p (s : State) (d : PReg) (A : Point) (r : Product) : (s.wrProduct d A r).p = s.p.set d A := rfl
@[simp] theorem State.wrProduct_k (s : State) (d : PReg) (A : Point) (r : Product) : (s.wrProduct d A r).k = s.k := rfl
@[simp] theorem State.wrProduct_q (s : State) (d : PReg) (A : Point) (r : Product) : (s.wrProduct d A r).q = r.q := rfl
@[simp] theorem State.wrProduct_dig (s : State) (d : PReg) (A : Point) (r : Product) : (s.wrProduct d A r).dig = r.dig := rfl
@[simp] theorem State.wrProduct_t (s : State) (d : PReg) (A : Point) (r : Product) : (s.wrProduct d A r).t = r.t := rfl
@[simp] theorem State.wrProduct_buf (s : State) (d : PReg) (A : Point) (r : Product) : (s.wrProduct d A r).buf = s.buf := rfl
@[simp] theorem State.wrProduct_blen (s : State) (d : PReg) (A : Point) (r : Product) : (s.wrProduct d A r).blen = s.blen := rfl
@[simp] theorem State.wrProduct_flag (s : State) (d : PReg) (A : Point) (r : Product) : (s.wrProduct d A r).flag = s.flag := rfl
@[simp] theorem State.wrProduct_halt (s : State) (d : PReg) (A : Point) (r : Product) : (s.wrProduct d A r).halt = s.halt := rfl
@[simp] theorem State.wrProduct_ovr (s : State) (d : PReg) (A : Point) (r : Product) : (s.wrProduct d A r).ovr = s.ovr := rfl
@[simp] theorem State.wrProduct_gtv (s : State) (d : PReg) (A : Point) (r : Product) : (s.wrProduct d A r).gtv = s.gtv := rfl
@[simp] theorem State.wrProduct_qv (s : State) (d : PReg) (A : Point) (r : Product) : (s.wrProduct d A r).qv = true := rfl
@[simp] theorem State.wrProduct_dv (s : State) (d : PReg) (A : Point) (r : Product) : (s.wrProduct d A r).dv = true := rfl
@[simp] theorem State.wrProduct_tv (s : State) (d : PReg) (A : Point) (r : Product) : (s.wrProduct d A r).tv = true := rfl
@[simp] theorem State.wrProduct_running (s : State) (d : PReg) (A : Point) (r : Product) : (s.wrProduct d A r).running = s.running := rfl
@[simp] theorem State.wrProduct_result (s : State) (d : PReg) (A : Point) (r : Product) : (s.wrProduct d A r).result = s.result := rfl
@[simp] theorem State.wrProduct_errcmd (s : State) (d : PReg) (A : Point) (r : Product) : (s.wrProduct d A r).errcmd = s.errcmd := rfl
@[simp] theorem State.wrProduct_inbox (s : State) (d : PReg) (A : Point) (r : Product) : (s.wrProduct d A r).inbox = s.inbox := rfl
@[simp] theorem State.wrProduct_readData (s : State) (d : PReg) (A : Point) (r : Product) : (s.wrProduct d A r).readData = s.readData := rfl
@[simp] theorem State.wrProduct_freeCount (s : State) (d : PReg) (A : Point) (r : Product) : (s.wrProduct d A r).freeCount = s.freeCount := rfl

/-! State.setGtv. -/

@[simp] theorem State.setGtv_f (s : State) : s.setGtv.f = s.f := rfl
@[simp] theorem State.setGtv_e (s : State) : s.setGtv.e = s.e := rfl
@[simp] theorem State.setGtv_p (s : State) : s.setGtv.p = s.p := rfl
@[simp] theorem State.setGtv_k (s : State) : s.setGtv.k = s.k := rfl
@[simp] theorem State.setGtv_q (s : State) : s.setGtv.q = s.q := rfl
@[simp] theorem State.setGtv_dig (s : State) : s.setGtv.dig = s.dig := rfl
@[simp] theorem State.setGtv_t (s : State) : s.setGtv.t = s.t := rfl
@[simp] theorem State.setGtv_buf (s : State) : s.setGtv.buf = s.buf := rfl
@[simp] theorem State.setGtv_blen (s : State) : s.setGtv.blen = s.blen := rfl
@[simp] theorem State.setGtv_flag (s : State) : s.setGtv.flag = s.flag := rfl
@[simp] theorem State.setGtv_halt (s : State) : s.setGtv.halt = s.halt := rfl
@[simp] theorem State.setGtv_ovr (s : State) : s.setGtv.ovr = s.ovr := rfl
@[simp] theorem State.setGtv_gtv (s : State) : s.setGtv.gtv = true := rfl
@[simp] theorem State.setGtv_qv (s : State) : s.setGtv.qv = s.qv := rfl
@[simp] theorem State.setGtv_dv (s : State) : s.setGtv.dv = s.dv := rfl
@[simp] theorem State.setGtv_tv (s : State) : s.setGtv.tv = s.tv := rfl
@[simp] theorem State.setGtv_running (s : State) : s.setGtv.running = s.running := rfl
@[simp] theorem State.setGtv_result (s : State) : s.setGtv.result = s.result := rfl
@[simp] theorem State.setGtv_errcmd (s : State) : s.setGtv.errcmd = s.errcmd := rfl
@[simp] theorem State.setGtv_inbox (s : State) : s.setGtv.inbox = s.inbox := rfl
@[simp] theorem State.setGtv_readData (s : State) : s.setGtv.readData = s.readData := rfl
@[simp] theorem State.setGtv_freeCount (s : State) : s.setGtv.freeCount = s.freeCount := rfl

/-! State.setFlag. -/

@[simp] theorem State.setFlag_f (s : State) (b : Bool) : (s.setFlag b).f = s.f := rfl
@[simp] theorem State.setFlag_e (s : State) (b : Bool) : (s.setFlag b).e = s.e := rfl
@[simp] theorem State.setFlag_p (s : State) (b : Bool) : (s.setFlag b).p = s.p := rfl
@[simp] theorem State.setFlag_k (s : State) (b : Bool) : (s.setFlag b).k = s.k := rfl
@[simp] theorem State.setFlag_q (s : State) (b : Bool) : (s.setFlag b).q = s.q := rfl
@[simp] theorem State.setFlag_dig (s : State) (b : Bool) : (s.setFlag b).dig = s.dig := rfl
@[simp] theorem State.setFlag_t (s : State) (b : Bool) : (s.setFlag b).t = s.t := rfl
@[simp] theorem State.setFlag_buf (s : State) (b : Bool) : (s.setFlag b).buf = s.buf := rfl
@[simp] theorem State.setFlag_blen (s : State) (b : Bool) : (s.setFlag b).blen = s.blen := rfl
@[simp] theorem State.setFlag_flag (s : State) (b : Bool) : (s.setFlag b).flag = b := rfl
@[simp] theorem State.setFlag_halt (s : State) (b : Bool) : (s.setFlag b).halt = s.halt := rfl
@[simp] theorem State.setFlag_ovr (s : State) (b : Bool) : (s.setFlag b).ovr = s.ovr := rfl
@[simp] theorem State.setFlag_gtv (s : State) (b : Bool) : (s.setFlag b).gtv = s.gtv := rfl
@[simp] theorem State.setFlag_qv (s : State) (b : Bool) : (s.setFlag b).qv = s.qv := rfl
@[simp] theorem State.setFlag_dv (s : State) (b : Bool) : (s.setFlag b).dv = s.dv := rfl
@[simp] theorem State.setFlag_tv (s : State) (b : Bool) : (s.setFlag b).tv = s.tv := rfl
@[simp] theorem State.setFlag_running (s : State) (b : Bool) : (s.setFlag b).running = s.running := rfl
@[simp] theorem State.setFlag_result (s : State) (b : Bool) : (s.setFlag b).result = s.result := rfl
@[simp] theorem State.setFlag_errcmd (s : State) (b : Bool) : (s.setFlag b).errcmd = s.errcmd := rfl
@[simp] theorem State.setFlag_inbox (s : State) (b : Bool) : (s.setFlag b).inbox = s.inbox := rfl
@[simp] theorem State.setFlag_readData (s : State) (b : Bool) : (s.setFlag b).readData = s.readData := rfl
@[simp] theorem State.setFlag_freeCount (s : State) (b : Bool) : (s.setFlag b).freeCount = s.freeCount := rfl

/-! State.putString. -/

@[simp] theorem State.putString_f (s : State) (n v : Nat) : (s.putString n v).f = s.f := rfl
@[simp] theorem State.putString_e (s : State) (n v : Nat) : (s.putString n v).e = s.e := rfl
@[simp] theorem State.putString_p (s : State) (n v : Nat) : (s.putString n v).p = s.p := rfl
@[simp] theorem State.putString_k (s : State) (n v : Nat) : (s.putString n v).k = s.k := rfl
@[simp] theorem State.putString_q (s : State) (n v : Nat) : (s.putString n v).q = s.q := rfl
@[simp] theorem State.putString_dig (s : State) (n v : Nat) : (s.putString n v).dig = s.dig := rfl
@[simp] theorem State.putString_t (s : State) (n v : Nat) : (s.putString n v).t = s.t := rfl
@[simp] theorem State.putString_buf (s : State) (n v : Nat) : (s.putString n v).buf = Memory.writeLE s.buf 0 n v := rfl
@[simp] theorem State.putString_blen (s : State) (n v : Nat) : (s.putString n v).blen = BitVec.ofNat 8 n := rfl
@[simp] theorem State.putString_flag (s : State) (n v : Nat) : (s.putString n v).flag = s.flag := rfl
@[simp] theorem State.putString_halt (s : State) (n v : Nat) : (s.putString n v).halt = s.halt := rfl
@[simp] theorem State.putString_ovr (s : State) (n v : Nat) : (s.putString n v).ovr = s.ovr := rfl
@[simp] theorem State.putString_gtv (s : State) (n v : Nat) : (s.putString n v).gtv = s.gtv := rfl
@[simp] theorem State.putString_qv (s : State) (n v : Nat) : (s.putString n v).qv = s.qv := rfl
@[simp] theorem State.putString_dv (s : State) (n v : Nat) : (s.putString n v).dv = s.dv := rfl
@[simp] theorem State.putString_tv (s : State) (n v : Nat) : (s.putString n v).tv = s.tv := rfl
@[simp] theorem State.putString_running (s : State) (n v : Nat) : (s.putString n v).running = s.running := rfl
@[simp] theorem State.putString_result (s : State) (n v : Nat) : (s.putString n v).result = s.result := rfl
@[simp] theorem State.putString_errcmd (s : State) (n v : Nat) : (s.putString n v).errcmd = s.errcmd := rfl
@[simp] theorem State.putString_inbox (s : State) (n v : Nat) : (s.putString n v).inbox = s.inbox := rfl
@[simp] theorem State.putString_readData (s : State) (n v : Nat) : (s.putString n v).readData = s.readData := rfl
@[simp] theorem State.putString_freeCount (s : State) (n v : Nat) : (s.putString n v).freeCount = s.freeCount := rfl

/-! State.doReset: every architectural field at its reset value, the model's own fields kept. -/

@[simp] theorem State.doReset_f (s : State) : s.doReset.f = State.reset.f := rfl
@[simp] theorem State.doReset_e (s : State) : s.doReset.e = State.reset.e := rfl
@[simp] theorem State.doReset_p (s : State) : s.doReset.p = State.reset.p := rfl
@[simp] theorem State.doReset_k (s : State) : s.doReset.k = State.reset.k := rfl
@[simp] theorem State.doReset_q (s : State) : s.doReset.q = State.reset.q := rfl
@[simp] theorem State.doReset_dig (s : State) : s.doReset.dig = State.reset.dig := rfl
@[simp] theorem State.doReset_t (s : State) : s.doReset.t = State.reset.t := rfl
@[simp] theorem State.doReset_buf (s : State) : s.doReset.buf = State.reset.buf := rfl
@[simp] theorem State.doReset_blen (s : State) : s.doReset.blen = State.reset.blen := rfl
@[simp] theorem State.doReset_flag (s : State) : s.doReset.flag = State.reset.flag := rfl
@[simp] theorem State.doReset_halt (s : State) : s.doReset.halt = State.reset.halt := rfl
@[simp] theorem State.doReset_ovr (s : State) : s.doReset.ovr = State.reset.ovr := rfl
@[simp] theorem State.doReset_gtv (s : State) : s.doReset.gtv = State.reset.gtv := rfl
@[simp] theorem State.doReset_qv (s : State) : s.doReset.qv = State.reset.qv := rfl
@[simp] theorem State.doReset_dv (s : State) : s.doReset.dv = State.reset.dv := rfl
@[simp] theorem State.doReset_tv (s : State) : s.doReset.tv = State.reset.tv := rfl
@[simp] theorem State.doReset_running (s : State) : s.doReset.running = State.reset.running := rfl
@[simp] theorem State.doReset_result (s : State) : s.doReset.result = State.reset.result := rfl
@[simp] theorem State.doReset_errcmd (s : State) : s.doReset.errcmd = State.reset.errcmd := rfl
@[simp] theorem State.doReset_inbox (s : State) : s.doReset.inbox = s.inbox := rfl
@[simp] theorem State.doReset_readData (s : State) : s.doReset.readData = s.readData := rfl
@[simp] theorem State.doReset_freeCount (s : State) : s.doReset.freeCount = s.freeCount := rfl

/-! Reading a register after writing one. -/

@[simp] theorem State.rdF_wrF_same (s : State) (r : FReg) (v : Fe) : (s.wrF r v).rdF r = v := by
  simp [State.rdF]

theorem State.rdF_wrF_other (s : State) (r r' : FReg) (v : Fe) (h : r' ≠ r) : (s.wrF r v).rdF r' = s.rdF r' := by
  have : r.val ≠ r'.val := fun e => h (Fin.ext e.symm)
  simp [State.rdF, this]

@[simp] theorem State.rdE_wrE_same (s : State) (r : EReg) (v : Fe2) : (s.wrE r v).rdE r = v := by
  simp [State.rdE]

theorem State.rdE_wrE_other (s : State) (r r' : EReg) (v : Fe2) (h : r' ≠ r) : (s.wrE r v).rdE r' = s.rdE r' := by
  have : r.val ≠ r'.val := fun e => h (Fin.ext e.symm)
  simp [State.rdE, this]

@[simp] theorem State.rdP_wrP_same (s : State) (r : PReg) (v : Point) : (s.wrP r v).rdP r = v := by
  simp [State.rdP]

theorem State.rdP_wrP_other (s : State) (r r' : PReg) (v : Point) (h : r' ≠ r) : (s.wrP r v).rdP r' = s.rdP r' := by
  have : r.val ≠ r'.val := fun e => h (Fin.ext e.symm)
  simp [State.rdP, this]

@[simp] theorem State.rdK_wrK_same (s : State) (r : KReg) (v : Scalar) : (s.wrK r v).rdK r = v := by
  simp [State.rdK]

theorem State.rdK_wrK_other (s : State) (r r' : KReg) (v : Scalar) (h : r' ≠ r) : (s.wrK r v).rdK r' = s.rdK r' := by
  have : r.val ≠ r'.val := fun e => h (Fin.ext e.symm)
  simp [State.rdK, this]

end Sys2Proof.Machine
end

