-- ==== Sys2Proof/Laws/Memory.lean ====
section
/-! SUPPORT. The laws of BUF: read after write, and that every memory operation keeps the canonical form. -/

namespace Sys2Proof.Machine

/-! Reading after writing; no premise on the list is needed. -/

theorem Memory.read_insert_same (m : Memory) (a : Nat) (b : Byte) : Memory.read (Memory.insert m a b) a = b := by
  induction m with
  | nil => simp [Memory.insert, Memory.read]
  | cons kc rest ih =>
    obtain ⟨k, c⟩ := kc
    unfold Memory.insert
    split
    · simp [Memory.read]
    · split
      · simp [Memory.read]
      · simp [Memory.read, ih, Ne.symm ‹¬a = k›]

theorem Memory.read_insert_other (m : Memory) (a a' : Nat) (b : Byte) (h : a' ≠ a) :
    Memory.read (Memory.insert m a b) a' = Memory.read m a' := by
  induction m with
  | nil => simp [Memory.insert, Memory.read, h.symm]
  | cons kc rest ih =>
    obtain ⟨k, c⟩ := kc
    unfold Memory.insert
    split
    · simp [Memory.read, h.symm]
    · split
      · rename_i hk
        subst hk
        simp [Memory.read, h.symm]
      · simp [Memory.read, ih]

theorem Memory.read_filter_same (m : Memory) (a : Nat) :
    Memory.read (m.filter (fun c => decide (c.1 ≠ a))) a = 0 := by
  induction m with
  | nil => rfl
  | cons kc rest ih =>
    obtain ⟨k, c⟩ := kc
    by_cases hk : k = a
    · simpa [hk] using ih
    · simpa [hk, Memory.read] using ih

theorem Memory.read_filter_other (m : Memory) (a a' : Nat) (h : a' ≠ a) :
    Memory.read (m.filter (fun c => decide (c.1 ≠ a))) a' = Memory.read m a' := by
  induction m with
  | nil => rfl
  | cons kc rest ih =>
    obtain ⟨k, c⟩ := kc
    by_cases hk : k = a
    · subst hk
      simpa [Memory.read, h.symm] using ih
    · by_cases hk' : k = a'
      · simp [Memory.read, hk', h]
      · simpa [hk, Memory.read, hk'] using ih

/-- A read at the address written gives the byte written. -/
@[simp] theorem Memory.read_write_same (m : Memory) (a : Nat) (b : Byte) : Memory.read (Memory.write m a b) a = b := by
  unfold Memory.write
  split
  · rw [Memory.read_filter_same]; exact ‹b = 0›.symm
  · exact Memory.read_insert_same m a b

/-- A write leaves every other address alone. -/
theorem Memory.read_write_other (m : Memory) (a a' : Nat) (b : Byte) (h : a' ≠ a) :
    Memory.read (Memory.write m a b) a' = Memory.read m a' := by
  unfold Memory.write
  split
  · exact Memory.read_filter_other m a a' h
  · exact Memory.read_insert_other m a a' b h

/-- MemWrite leaves every address outside a..a+n-1 alone. -/
theorem Memory.read_writeLE_outside (m : Memory) (a n v a' : Nat) (h : a' < a ∨ a + n ≤ a') :
    Memory.read (Memory.writeLE m a n v) a' = Memory.read m a' := by
  induction n generalizing m a v with
  | zero => rfl
  | succ n ih =>
    rw [Memory.writeLE, ih _ _ _ (by omega), Memory.read_write_other _ _ _ _ (by omega)]

/-- Byte k of MemWrite(a, n, v) is byte k of v. -/
theorem Memory.read_writeLE_inside (m : Memory) (a n v k : Nat) (h : k < n) :
    Memory.read (Memory.writeLE m a n v) (a + k) = BitVec.ofNat 8 (v / 256 ^ k) := by
  induction n generalizing m a v k with
  | zero => omega
  | succ n ih =>
    rw [Memory.writeLE]
    cases k with
    | zero => rw [Memory.read_writeLE_outside _ _ _ _ _ (by omega)]; simp
    | succ k =>
      have := ih (Memory.write m a (BitVec.ofNat 8 v)) (a + 1) (v / 256) k (by omega)
      rw [show a + (k + 1) = a + 1 + k by omega, this, Nat.div_div_eq_div_mul, ← Nat.pow_succ']

/-- MemRead, as the sum the spec writes (00_scope.md section 5). -/
theorem Memory.readLE_eq_sum (m : Memory) (a n : Nat) : Memory.readLE m a n = memValue m a n := by
  induction n generalizing a with
  | zero => rfl
  | succ n ih =>
    simp only [Memory.readLE, ih, memValue, Finset.sum_range_succ', Finset.mul_sum]
    rw [add_comm]
    congr 1
    · refine Finset.sum_congr rfl fun k _ => ?_
      rw [show a + 1 + k = a + (k + 1) by omega, pow_succ]
      ring
    · simp

/-- A MemRead of n bytes is below 256^n. -/
theorem Memory.readLE_lt (m : Memory) (a n : Nat) : Memory.readLE m a n < 256 ^ n := by
  induction n generalizing a with
  | zero => simp [Memory.readLE]
  | succ n ih =>
    have h1 := ih (a + 1)
    have h2 := (Memory.read m a).isLt
    rw [Memory.readLE, pow_succ]
    omega

/-! The canonical form, by its parts. -/

/-- The canonical form as a statement about the list. -/
theorem Memory.wf_iff (m : Memory) :
    Memory.wf m = true ↔ m.Pairwise (fun x y => x.1 < y.1) ∧ ∀ c ∈ m, c.1 < Config.bufSize ∧ c.2 ≠ 0 := by
  induction m with
  | nil => simp [Memory.wf]
  | cons kc rest ih =>
    obtain ⟨a, b⟩ := kc
    cases rest with
    | nil => simp [Memory.wf]
    | cons kc' rest =>
      obtain ⟨a', b'⟩ := kc'
      simp only [Memory.wf, Bool.and_eq_true, decide_eq_true_eq, ih]
      constructor
      · rintro ⟨⟨h1, h2⟩, h3, h4⟩
        have h5 := (h4 (a', b') (by simp)).1
        refine ⟨List.pairwise_cons.2 ⟨fun x hx => ?_, h3⟩, fun c hc => ?_⟩
        · rcases List.mem_cons.1 hx with rfl | hx
          · exact h1
          · exact Nat.lt_trans h1 ((List.pairwise_cons.1 h3).1 x hx)
        · rcases List.mem_cons.1 hc with rfl | hc
          · exact ⟨Nat.lt_trans h1 h5, h2⟩
          · exact h4 c hc
      · rintro ⟨h1, h2⟩
        exact ⟨⟨(List.pairwise_cons.1 h1).1 (a', b') (by simp), (h2 (a, b) (by simp)).2⟩, (List.pairwise_cons.1 h1).2,
          fun c hc => h2 c (List.mem_cons_of_mem _ hc)⟩

theorem Memory.mem_insert {m : Memory} {a : Nat} {b : Byte} {x : Host.Cell} (h : x ∈ Memory.insert m a b) :
    x = (a, b) ∨ x ∈ m := by
  induction m with
  | nil => simpa [Memory.insert] using h
  | cons kc rest ih =>
    obtain ⟨k, c⟩ := kc
    unfold Memory.insert at h
    split at h
    · simpa using h
    · split at h
      · rcases List.mem_cons.1 h with h | h
        · exact .inl h
        · exact .inr (List.mem_cons_of_mem _ h)
      · rcases List.mem_cons.1 h with h | h
        · exact .inr (by simp [h])
        · exact (ih h).imp_right (List.mem_cons_of_mem _)

theorem Memory.insert_pairwise {m : Memory} (a : Nat) (b : Byte) (h : m.Pairwise (fun x y => x.1 < y.1)) :
    (Memory.insert m a b).Pairwise (fun x y => x.1 < y.1) := by
  induction m with
  | nil => simp [Memory.insert]
  | cons kc rest ih =>
    obtain ⟨k, c⟩ := kc
    have ⟨h1, h2⟩ := List.pairwise_cons.1 h
    unfold Memory.insert
    split
    · refine List.pairwise_cons.2 ⟨fun x hx => ?_, h⟩
      rcases List.mem_cons.1 hx with rfl | hx
      · exact ‹a < k›
      · exact Nat.lt_trans ‹a < k› (h1 x hx)
    · split
      · rename_i hk
        subst hk
        exact List.pairwise_cons.2 ⟨h1, h2⟩
      · refine List.pairwise_cons.2 ⟨fun x hx => ?_, ih h2⟩
        rcases Memory.mem_insert hx with rfl | hx
        · simp only; omega
        · exact h1 x hx

/-- A write inside BUF keeps the canonical form. -/
theorem Memory.wf_write (m : Memory) (a : Nat) (b : Byte) (ha : a < Config.bufSize) (h : Memory.wf m = true) :
    Memory.wf (Memory.write m a b) = true := by
  rw [Memory.wf_iff] at h ⊢
  unfold Memory.write
  split
  · exact ⟨h.1.filter _, fun c hc => h.2 c (List.mem_of_mem_filter hc)⟩
  · refine ⟨Memory.insert_pairwise a b h.1, fun c hc => ?_⟩
    rcases Memory.mem_insert hc with rfl | hc
    · exact ⟨ha, ‹¬b = 0›⟩
    · exact h.2 c hc

/-- MemWrite inside BUF keeps the canonical form. -/
theorem Memory.wf_writeLE (m : Memory) (a n v : Nat) (ha : a + n ≤ Config.bufSize) (h : Memory.wf m = true) :
    Memory.wf (Memory.writeLE m a n v) = true := by
  induction n generalizing m a v with
  | zero => exact h
  | succ n ih => exact ih _ _ _ (by omega) (Memory.wf_write m a _ (by omega) h)

/-- A byte that a canonical list holds is what a read gives; an address it does not list reads 0x00. -/
theorem Memory.read_of_mem {m : Memory} (h : Memory.wf m = true) {a : Nat} {b : Byte} (hm : (a, b) ∈ m) :
    Memory.read m a = b := by
  rw [Memory.wf_iff] at h
  induction m with
  | nil => simp at hm
  | cons kc rest ih =>
    obtain ⟨k, c⟩ := kc
    have ⟨h1, h2⟩ := List.pairwise_cons.1 h.1
    rcases List.mem_cons.1 hm with hm | hm
    · cases hm; simp [Memory.read]
    · have := h1 _ hm
      simp only at this
      rw [Memory.read, if_neg (by omega)]
      exact ih ⟨h2, fun c hc => h.2 c (List.mem_cons_of_mem _ hc)⟩ hm

/-- Reset memory has the canonical form. -/
theorem Memory.wf_reset : Memory.wf State.reset.buf = true := rfl

end Sys2Proof.Machine
end

