-- ==== Sys2Proof/Laws/Ops.lean ====
section
/-! SUPPORT. For each shared operation, what it can do, said once. -/

namespace Sys2Proof.Machine

/-! How a command ends. -/

theorem succeed_next {s t : State} : succeed s = .next t ↔ t = s.complete := by
  constructor
  · intro h; cases h; rfl
  · rintro rfl; rfl

theorem fail_next {i : Instr} {c : ErrorCode} {s t : State} : fail i c s = .next t ↔ t = s.raise c (encode i) := by
  constructor
  · intro h; cases h; rfl
  · rintro rfl; rfl

/-- A success is told from an error by RESULT (60_exceptions.md R281). -/
theorem ErrorCode.code_ne_zero (c : ErrorCode) : c.code ≠ 0 := by cases c <;> decide

theorem ErrorCode.code_le_seven (c : ErrorCode) : c.code.toNat ≤ 7 := by cases c <;> decide

/-- Different errors have different codes. -/
theorem ErrorCode.code_injective {c c' : ErrorCode} (h : c.code = c'.code) : c = c' := by
  cases c <;> cases c' <;> first | rfl | exact absurd h (by decide)

/-- A recoverable error changes RESULT, ERRCMD and BUSY alone (60_exceptions.md R283). -/
theorem State.raise_recoverable (s : State) (c : ErrorCode) (i : Instr) (h : c ≠ .zeroInversion) :
    s.raise c (encode i) = raised s i c.code := by
  simp [State.raise, h]

/-- ZeroInversion also sets HALT (60_exceptions.md R286). -/
theorem State.raise_fatal (s : State) (i : Instr) : s.raise .zeroInversion (encode i) = raisedFatal s i := by
  simp [State.raise, ErrorCode.code]

/-! Strings in BUF. -/

/-- A command that writes a string changes its bytes alone (20_memory.md R78). -/
theorem State.putString_wrote (s : State) (n v : Nat) : WroteString s.buf (s.putString n v).buf n v := by
  refine ⟨fun k hk => ?_, fun k hk => ?_⟩
  · simpa using Memory.read_writeLE_inside s.buf 0 n v k hk
  · exact Memory.read_writeLE_outside s.buf 0 n v k (by omega)

theorem State.putString_wf (s : State) (n v : Nat) (hn : n ≤ Config.bufSize) (h : Memory.wf s.buf = true) :
    Memory.wf (s.putString n v).buf = true :=
  Memory.wf_writeLE s.buf 0 n v (by omega) h

theorem State.getString_eq (s : State) (off n : Nat) : s.getString off n = memValue s.buf off n :=
  Memory.readLE_eq_sum s.buf off n

theorem State.lengthIs_iff (s : State) (n : Nat) : s.lengthIs n = true ↔ s.blen.toNat = n := by
  simp [State.lengthIs]

/-! The host port. -/

/-- A read changes the model's own fields alone (20_memory.md R70). -/
theorem hostRead_frame (s : State) (addr : Nat) :
    ∃ v n, hostRead s addr = { s with readData := v, freeCount := n } := by
  unfold hostRead
  split
  · exact ⟨_, _, rfl⟩
  · exact ⟨_, _, rfl⟩

/-- Everything a host write can do (47_system.md R272, 70_reset_and_hazards.md R327). -/
theorem hostWrite_cases (s : State) (addr : Nat) (w : Word) :
    (hostWrite s addr w = s)
      ∨ (s.busy = true ∧ hostWrite s addr w = { s with ovr := true })
      ∨ (addr = 0 ∧ s.busy = false ∧ s.halt = false ∧ hostWrite s addr w = { s with running := some w })
      ∨ (addr = 0x10 ∧ s.busy = false ∧ hostWrite s addr w = { s with blen := w.setWidth 8 })
      ∨ (addr = 0x14 ∧ hostWrite s addr w = s.doReset)
      ∨ (addr = 0x14 ∧ hostWrite s addr w = { s with ovr := false })
      ∨ (0x80 ≤ addr ∧ s.busy = false
          ∧ hostWrite s addr w = { s with buf := Memory.writeLE s.buf (addr - 0x80) 4 w.toNat }) := by
  unfold hostWrite
  split
  · rename_i h; subst h
    unfold writeCmd
    split
    · exact .inr (.inl ⟨‹_›, rfl⟩)
    · split
      · exact .inl rfl
      · exact .inr (.inr (.inl ⟨rfl, by simpa using ‹¬s.busy = true›, by simpa using ‹¬s.halt = true›, rfl⟩))
  · split
    · rename_i h; subst h
      unfold writeBlen
      split
      · exact .inr (.inl ⟨‹_›, rfl⟩)
      · exact .inr (.inr (.inr (.inl ⟨rfl, by simpa using ‹¬s.busy = true›, rfl⟩)))
    · split
      · rename_i h; subst h
        unfold writeCtrl
        split
        · exact .inr (.inr (.inr (.inr (.inl ⟨rfl, rfl⟩))))
        · split
          · exact .inr (.inr (.inr (.inr (.inr (.inl ⟨rfl, rfl⟩)))))
          · exact .inl rfl
      · split
        · unfold writeBuf
          split
          · exact .inr (.inl ⟨‹_›, rfl⟩)
          · exact .inr (.inr (.inr (.inr (.inr (.inr ⟨‹_›, by simpa using ‹¬s.busy = true›, rfl⟩)))))
        · exact .inl rfl

/-- An access that goes through names an offset of the port, a multiple of 4 in 0x00..0xFC (20_memory.md R66). -/
theorem atOffset_next {addr : Nat} {s t : State} (h : atOffset addr s = .next t) :
    t = s ∧ addr < 0x100 ∧ addr % 4 = 0 := by
  unfold atOffset at h
  split at h
  · cases h
  · split at h
    · cases h
    · cases h; exact ⟨rfl, by omega, by omega⟩

/-- Everything an access that goes through can do. -/
theorem hostAccess_cases {x : HostAccess} {s t : State} (h : hostAccess x s = .next t) :
    (∃ addr, x = .read addr ∧ addr < 0x100 ∧ addr % 4 = 0 ∧ t = hostRead s addr)
      ∨ (∃ addr w, x = .write addr w ∧ addr < 0x100 ∧ addr % 4 = 0 ∧ t = hostWrite s addr w)
      ∨ (x = .reset ∧ t = s.doReset) := by
  cases x with
  | read addr => exact .inl ⟨addr, rfl, (atOffset_next h).2.1, (atOffset_next h).2.2, (atOffset_next h).1⟩
  | write addr w => exact .inr (.inl ⟨addr, w, rfl, (atOffset_next h).2.1, (atOffset_next h).2.2, (atOffset_next h).1⟩)
  | reset => cases h; exact .inr (.inr ⟨rfl, rfl⟩)

/-! One step. -/

/-- Everything an issued command word can do. -/
theorem runCommand_cases {w : Word} {s t : State} (h : runCommand w s = .next t) :
    (∃ i, decode w = .ok i ∧ exec i s = .next t) ∨ (∃ e, decode w = .error e ∧ t = s.raise .illegalCommand w) := by
  unfold runCommand at h
  split at h
  · exact .inl ⟨_, ‹_›, h⟩
  · cases h; exact .inr ⟨_, ‹_›, rfl⟩

/-- Everything a step can do: an access of the host, a command, or nothing. -/
theorem step_cases {s t : State} (h : step s = .next t) :
    (∃ x o rest, s.inbox = ⟨x, o⟩ :: rest ∧ hostAccess x { s with inbox := rest } = .next t)
      ∨ (∃ w, s.running = some w ∧ runCommand w s = .next t)
      ∨ (s.running = none ∧ s.inbox = [] ∧ t = s) := by
  unfold step at h
  split at h
  · exact .inl ⟨_, _, _, ‹_›, h⟩
  · exact .inr (.inl ⟨_, ‹_›, h⟩)
  · exact .inl ⟨_, _, _, ‹_›, h⟩
  · cases h; exact .inr (.inr ⟨‹_›, ‹_›, rfl⟩)

/-! Tables and multiplications. -/

theorem phiChecked_some {P R : Point} : phiChecked P = some R ↔ (phi P).Z ≠ ezero ∧ phi P = R := by
  unfold phiChecked
  split <;> simp [*]

theorem psiChecked_some {P R : Point} : psiChecked P = some R ↔ (psi P).Z ≠ ezero ∧ psi P = R := by
  unfold psiChecked
  split <;> simp [*]

/-- A table is built just when none of its three points is exceptional (45_multiplier.md R220). -/
theorem buildTable_some {P : Point} {tb : Vector Point 8} :
    buildTable P = some tb ↔ NotExceptional P ∧ tableEntries P (phi P) (psi P) (psi (phi P)) = tb := by
  simp only [buildTable, Option.bind_eq_some_iff, Option.map_eq_some_iff, phiChecked_some, psiChecked_some]
  constructor
  · rintro ⟨_, ⟨h1, rfl⟩, _, ⟨h2, rfl⟩, _, ⟨h3, rfl⟩, h⟩
    exact ⟨⟨h1, h2, h3⟩, h⟩
  · rintro ⟨⟨h1, h2, h3⟩, h⟩
    exact ⟨_, ⟨h1, rfl⟩, _, ⟨h2, rfl⟩, _, ⟨h3, rfl⟩, h⟩

/-- What a multiplication leaves, when it does not raise (45_multiplier.md R225). -/
theorem smulval_some {k : Scalar} {P : Point} {r : Product} (h : smulval k P = some r) :
    buildTable P = some r.t ∧ r.q = decompose k ∧ r.dig = recode (decompose k) ∧ r.A = mulLoop r.t r.dig := by
  obtain ⟨tb, h1, h2⟩ := Option.map_eq_some_iff.1 h
  subst h2
  exact ⟨h1, rfl, rfl, rfl⟩

/-- [n]P, one bit at a time (00_scope.md section 5). -/
theorem multiple_succ (P : Point) (bits n : Nat) :
    multiple P (bits + 1) n
      = if n % 2 = 1 then padd (pdbl (multiple P bits (n / 2))) P else pdbl (multiple P bits (n / 2)) := by
  rw [multiple]

/-- a^n, one bit at a time (41_primefield.md R126). -/
theorem powBy_succ {α : Type} (mul : α → α → α) (one a : α) (bits n : Nat) :
    powBy mul one a (bits + 1) n
      = if n % 2 = 1 then mul a (mul (powBy mul one a bits (n / 2)) (powBy mul one a bits (n / 2)))
        else mul (powBy mul one a bits (n / 2)) (powBy mul one a bits (n / 2)) := by
  rw [powBy]

end Sys2Proof.Machine
end

