-- ==== Sys2Proof/Laws/Commands.lean ====
section
/-! SUPPORT. The commands whose meaning hangs on a long computation, by its outcome: a proof that rewrites with these
never makes Lean evaluate a point formula. -/

namespace Sys2Proof.Machine

@[simp] theorem andThen_next (s : State) (f : State → Host.Outcome State Fault Refusal) :
    andThen (.next s) f = f s := rfl

@[simp] theorem execAll_nil (s : State) : execAll [] s = .next s := rfl

theorem execAll_cons (i : Instr) (rest : List Instr) (s : State) :
    execAll (i :: rest) s = andThen (exec i s) (execAll rest) := by
  rw [execAll]

/-- A host that issues two sequences one after the other issues the joined one. -/
theorem execAll_append (is js : List Instr) (s : State) :
    execAll (is ++ js) s = andThen (execAll is s) (execAll js) := by
  induction is generalizing s with
  | nil => rfl
  | cons i is ih =>
    rw [List.cons_append, execAll_cons, execAll_cons]
    cases exec i s with
    | next t => exact ih t
    | fault r => rfl
    | refused r => rfl

/-- PPHI of an exceptional point (43_curvepoint.md R173). -/
theorem execPphi_exceptional {d a : PReg} {s : State} (h : (phi (s.rdP a)).Z = ezero) :
    execPphi d a s = fail (.pphi d a) .exceptionalPoint s := by
  rw [execPphi, phiChecked, if_pos h, Option.elim_none]

/-- PPHI of any other point (43_curvepoint.md R173). -/
theorem execPphi_done {d a : PReg} {s : State} (h : (phi (s.rdP a)).Z ≠ ezero) :
    execPphi d a s = succeed (s.wrP d (phi (s.rdP a))) := by
  rw [execPphi, phiChecked, if_neg h, Option.elim_some]

/-- PPSI of an exceptional point (43_curvepoint.md R174). -/
theorem execPpsi_exceptional {d a : PReg} {s : State} (h : (psi (s.rdP a)).Z = ezero) :
    execPpsi d a s = fail (.ppsi d a) .exceptionalPoint s := by
  rw [execPpsi, psiChecked, if_pos h, Option.elim_none]

/-- PPSI of any other point (43_curvepoint.md R174). -/
theorem execPpsi_done {d a : PReg} {s : State} (h : (psi (s.rdP a)).Z ≠ ezero) :
    execPpsi d a s = succeed (s.wrP d (psi (s.rdP a))) := by
  rw [execPpsi, psiChecked, if_neg h, Option.elim_some]

theorem execTbuild_none {a : PReg} {s : State} (h : buildTable (s.rdP a) = none) :
    execTbuild a s = fail (.tbuild a) .exceptionalPoint s := by
  rw [execTbuild, h, Option.elim_none]

theorem execTbuild_some {a : PReg} {s : State} {tb : Vector Point 8} (h : buildTable (s.rdP a) = some tb) :
    execTbuild a s = succeed (s.wrT tb) := by
  rw [execTbuild, h, Option.elim_some]

theorem execSmul_none {d : PReg} {a : KReg} {b : PReg} {s : State} (h : smulval (s.rdK a) (s.rdP b) = none) :
    execSmul d a b s = fail (.smul d a b) .exceptionalPoint s := by
  rw [execSmul, h, Option.elim_none]

theorem execSmul_some {d : PReg} {a : KReg} {b : PReg} {s : State} {r : Product}
    (h : smulval (s.rdK a) (s.rdP b) = some r) : execSmul d a b s = succeed (s.wrProduct d r.A r) := by
  rw [execSmul, h, Option.elim_some]

theorem execDsmul_none {d : PReg} {a : KReg} {b : PReg} {c : KReg} {e : PReg} {s : State}
    (h : smulval (s.rdK a) (s.rdP b) = none ∨ smulval (s.rdK c) (s.rdP e) = none) :
    execDsmul d a b c e s = fail (.dsmul d a b c e) .exceptionalPoint s := by
  rw [execDsmul]
  rcases h with h | h
  · rw [h, Option.elim_none]
  · rw [h]
    generalize smulval (s.rdK a) (s.rdP b) = o
    cases o with
    | none => rw [Option.elim_none]
    | some r => rw [Option.elim_some, Option.elim_none]

theorem execDsmul_some {d : PReg} {a : KReg} {b : PReg} {c : KReg} {e : PReg} {s : State} {r1 r2 : Product}
    (h1 : smulval (s.rdK a) (s.rdP b) = some r1) (h2 : smulval (s.rdK c) (s.rdP e) = some r2) :
    execDsmul d a b c e s = succeed (s.wrProduct d (padd r1.A r2.A) r2) := by
  rw [execDsmul, h1, Option.elim_some, h2, Option.elim_some]

theorem execDsmulg_none {d : PReg} {a b : KReg} {c : PReg} {s : State} (h : smulval (s.rdK b) (s.rdP c) = none) :
    execDsmulg d a b c s = fail (.dsmulg d a b c) .exceptionalPoint s := by
  rw [execDsmulg, h, Option.elim_none]

theorem execDsmulg_some {d : PReg} {a b : KReg} {c : PReg} {s : State} {r : Product}
    (h : smulval (s.rdK b) (s.rdP c) = some r) :
    execDsmulg d a b c s
      = succeed (s.wrProduct d (padd (generatorMultiple (s.rdK a)) r.A) r).setGtv := by
  rw [execDsmulg, h, Option.elim_some]

/-- A decoded point is on the curve, with Z = 1 (46_codec.md R254). -/
theorem decompress_some {y : Fe2} {sign : Bool} {P : Point} (h : decompress y sign = some P) :
    ∃ x, rootWithSign (emul (esub (esq y) eone) (einv (eadd (emul curveD (esq y)) eone))) sign = some x
      ∧ affineOnCurve x y = true ∧ P = ofAffine x y := by
  rw [decompress] at h
  split at h
  · cases h
  · obtain ⟨x, hx, h⟩ := Option.bind_eq_some_iff.1 h
    split at h
    · cases h; exact ⟨x, hx, ‹_›, rfl⟩
    · cases h

end Sys2Proof.Machine
end

