-- ==== Sys2Proof/Laws/Field.lean ====
section
/-! SUPPORT. What the shared field operations compute, as integers, and that their results are canonical
(00_scope.md section 5, 10_state.md R27), and as elements of the field ZMod p. That the reducer is the remainder is a
statement for the provers (R120); here it is congruent and fits 127 bits. -/

namespace Sys2Proof.Machine

open Sys2Proof.Config (prime)

theorem prime_pos : 0 < prime := by decide

theorem prime_lt : prime < 2 ^ 127 := by decide

theorem toNat_ofNat_lt_prime {n : Nat} (h : n < prime) : (BitVec.ofNat 127 n).toNat = n := by
  rw [BitVec.toNat_ofNat]
  exact Nat.mod_eq_of_lt (h.trans prime_lt)

theorem fadd_toNat (a b : Fe) : (fadd a b).toNat = (a.toNat + b.toNat) % prime :=
  toNat_ofNat_lt_prime (Nat.mod_lt _ prime_pos)

theorem fsub_toNat (a b : Fe) : (fsub a b).toNat = (a.toNat + (prime - b.toNat)) % prime :=
  toNat_ofNat_lt_prime (Nat.mod_lt _ prime_pos)

theorem fneg_toNat (a : Fe) : (fneg a).toNat = (prime - a.toNat) % prime :=
  toNat_ofNat_lt_prime (Nat.mod_lt _ prime_pos)

theorem fadd_canonical (a b : Fe) : FeCanonical (fadd a b) := by
  rw [FeCanonical, fadd_toNat]
  exact Nat.mod_lt _ prime_pos

theorem fsub_canonical (a b : Fe) : FeCanonical (fsub a b) := by
  rw [FeCanonical, fsub_toNat]
  exact Nat.mod_lt _ prime_pos

theorem fneg_canonical (a : Fe) : FeCanonical (fneg a) := by
  rw [FeCanonical, fneg_toNat]
  exact Nat.mod_lt _ prime_pos

/-- The components of a product are a difference and a sum, so they are canonical whatever the factors are. -/
theorem emul_canonical (u v : Fe2) : Fe2Canonical (emul u v) := ⟨fsub_canonical _ _, fadd_canonical _ _⟩

theorem eadd_canonical (u v : Fe2) : Fe2Canonical (eadd u v) := ⟨fadd_canonical _ _, fadd_canonical _ _⟩

theorem esub_canonical (u v : Fe2) : Fe2Canonical (esub u v) := ⟨fsub_canonical _ _, fsub_canonical _ _⟩

theorem eneg_canonical (u : Fe2) : Fe2Canonical (eneg u) := ⟨fneg_canonical _, fneg_canonical _⟩

theorem padd_canonical (P Q : Point) : PointCanonical (padd P Q) :=
  ⟨emul_canonical _ _, emul_canonical _ _, emul_canonical _ _, emul_canonical _ _⟩

theorem pdbl_canonical (P : Point) : PointCanonical (pdbl P) :=
  ⟨emul_canonical _ _, emul_canonical _ _, emul_canonical _ _, emul_canonical _ _⟩

/-- The negative keeps Y and Z. -/
theorem pneg_canonical {P : Point} (h : PointCanonical P) : PointCanonical (pneg P) :=
  ⟨eneg_canonical _, h.2.1, h.2.2.1, eneg_canonical _⟩

/-! In ZMod p. -/

/-- p is prime (00_scope.md R7), by Lucas and Lehmer's test. -/
theorem prime_isPrime : Nat.Prime prime :=
  lucas_lehmer_sufficiency 127 (by norm_num) (by norm_num)

/-- A carry out of 127 bits counts one, as 2^127 = 1 modulo p. -/
theorem fold_modEq (n : Nat) : (n &&& prime) + (n >>> 127) ≡ n [MOD prime] := by
  rw [show n &&& prime = n % 2 ^ 127 from Nat.and_two_pow_sub_one_eq_mod n 127, Nat.shiftRight_eq_div_pow]
  change (n % 2 ^ 127 + n / 2 ^ 127) % (2 ^ 127 - 1) = n % (2 ^ 127 - 1)
  omega

/-- The reducer keeps the residue, of every number (41_primefield.md R120). -/
theorem red_modEq (z : Nat) : red z ≡ z [MOD prime] := by
  have h : ∀ r : Nat, (if r = prime then 0 else r) ≡ r [MOD prime] := fun r => by
    split
    · subst r; exact (Nat.mod_self prime).symm
    · rfl
  exact (h _).trans ((fold_modEq _).trans (fold_modEq z))

/-- The reduced product of two field elements fits 127 bits. -/
theorem red_mul_lt (a b : Fe) : red (a.toNat * b.toNat) < 2 ^ 127 := by
  have hz : a.toNat * b.toNat ≤ (2 ^ 127 - 1) * (2 ^ 127 - 1) :=
    Nat.mul_le_mul (Nat.le_sub_one_of_lt a.isLt) (Nat.le_sub_one_of_lt b.isLt)
  generalize a.toNat * b.toNat = z at hz
  have h : ∀ n : Nat, (n &&& prime) + (n >>> 127) = n % 2 ^ 127 + n / 2 ^ 127 := fun n => by
    rw [show n &&& prime = n % 2 ^ 127 from Nat.and_two_pow_sub_one_eq_mod n 127, Nat.shiftRight_eq_div_pow]
  simp only [red, h]
  split <;> omega

theorem fadd_cast (a b : Fe) : ((fadd a b).toNat : ZMod prime) = a.toNat + b.toNat := by
  rw [fadd_toNat, ZMod.natCast_mod, Nat.cast_add]

theorem fsub_cast (a b : Fe) : ((fsub a b).toNat : ZMod prime) = a.toNat - b.toNat := by
  have hb : b.toNat ≤ prime := Nat.le_sub_one_of_lt b.isLt
  rw [fsub_toNat, ZMod.natCast_mod, Nat.cast_add, Nat.cast_sub hb, ZMod.natCast_self, zero_sub, sub_eq_add_neg]

theorem fneg_cast (a : Fe) : ((fneg a).toNat : ZMod prime) = -a.toNat := by
  have ha : a.toNat ≤ prime := Nat.le_sub_one_of_lt a.isLt
  rw [fneg_toNat, ZMod.natCast_mod, Nat.cast_sub ha, ZMod.natCast_self, zero_sub]

theorem fmul_cast (a b : Fe) : ((fmul a b).toNat : ZMod prime) = a.toNat * b.toNat := by
  rw [fmul, BitVec.toNat_ofNat, Nat.mod_eq_of_lt (red_mul_lt a b), ← Nat.cast_mul]
  exact (ZMod.natCast_eq_natCast_iff _ _ _).2 (red_modEq _)

/-- A canonical element whose residue is 0 is 0. -/
theorem eq_zero_of_cast {a : Fe} (ha : FeCanonical a) (h : (a.toNat : ZMod prime) = 0) : a = 0 :=
  BitVec.eq_of_toNat_eq (Nat.eq_zero_of_dvd_of_lt ((ZMod.natCast_eq_zero_iff _ _).1 h) ha)

end Sys2Proof.Machine
end

