-- ==== Sys2Proof/Laws/PerInstr.lean ====
section
/-! SUPPORT. A statement about every command as syntax, one lemma per constructor. -/

namespace Sys2Proof.Laws

open Sys2Proof

/-- The opcode of each command (30_encoding.md R95). -/
def opcodeNumber : Instr → Nat
  | .nop => 0x00
  | .fadd .. => 0x10
  | .fsub .. => 0x11
  | .fmul .. => 0x12
  | .fsqr .. => 0x13
  | .fneg .. => 0x14
  | .finv .. => 0x15
  | .fisz .. => 0x16
  | .feq .. => 0x17
  | .ftob .. => 0x18
  | .ffromb .. => 0x19
  | .eadd .. => 0x20
  | .esub .. => 0x21
  | .emul .. => 0x22
  | .esqr .. => 0x23
  | .eneg .. => 0x24
  | .einv .. => 0x25
  | .eisz .. => 0x26
  | .eeq .. => 0x27
  | .etob .. => 0x28
  | .efromb .. => 0x29
  | .econj .. => 0x2A
  | .epack .. => 0x2B
  | .ere .. => 0x2C
  | .eim .. => 0x2D
  | .pid .. => 0x30
  | .padd .. => 0x31
  | .pdbl .. => 0x32
  | .pneg .. => 0x33
  | .ponc .. => 0x34
  | .paffx .. => 0x35
  | .paffy .. => 0x36
  | .peq .. => 0x37
  | .pseta .. => 0x38
  | .eonc .. => 0x39
  | .pphi .. => 0x3A
  | .ppsi .. => 0x3B
  | .pgen .. => 0x3C
  | .kfromb .. => 0x40
  | .ktob .. => 0x41
  | .kred .. => 0x42
  | .decomp .. => 0x43
  | .qtob => 0x44
  | .recode => 0x45
  | .dtob => 0x46
  | .tbuild .. => 0x50
  | .trd .. => 0x51
  | .tsel .. => 0x52
  | .smul .. => 0x53
  | .dsmul .. => 0x54
  | .dsmulg .. => 0x55
  | .penc .. => 0x60
  | .pdec .. => 0x61

/-- The opcode of a word, as a number. -/
theorem opcodeOf_ofNat (n : Nat) (h : n < 2 ^ 32) : (opcodeOf (BitVec.ofNat 32 n)).toNat = n / 2 ^ 24 := by
  rw [opcodeOf, BitVec.extractLsb'_toNat, BitVec.toNat_ofNat, Nat.mod_eq_of_lt h, Nat.shiftRight_eq_div_pow,
    Nat.mod_eq_of_lt]
  omega

/-- The low nibble of a word whose number is a multiple of 16. -/
theorem lowNibbleOf_ofNat (n : Nat) : lowNibbleOf (BitVec.ofNat 32 (n * 16)) = 0 := by
  apply BitVec.eq_of_toNat_eq
  rw [lowNibbleOf, BitVec.extractLsb'_toNat, BitVec.toNat_ofNat, Nat.shiftRight_eq_div_pow]
  change n * 16 % 4294967296 / 1 % 16 = 0
  omega

/-- Operands fit their fields, so the opcode stays in bits 31:24 and bits 3:0 stay zero. -/
theorem packR_shape (op rd rs1 rs2 rs3 rs4 : Nat) (h : op < 256) (h0 : rd < 16) (h1 : rs1 < 16) (h2 : rs2 < 16)
    (h3 : rs3 < 16) (h4 : rs4 < 16) :
    (opcodeOf (packR op rd rs1 rs2 rs3 rs4)).toNat = op ∧ lowNibbleOf (packR op rd rs1 rs2 rs3 rs4) = 0 := by
  constructor
  · rw [packR, opcodeOf_ofNat] <;> omega
  · rw [packR, show 0x1000000 * op + 0x100000 * rd + 0x10000 * rs1 + 0x1000 * rs2 + 0x100 * rs3 + 0x10 * rs4
        = (op * 0x100000 + rd * 0x10000 + rs1 * 0x1000 + rs2 * 0x100 + rs3 * 0x10 + rs4) * 16 by omega]
    exact lowNibbleOf_ofNat _

theorem packI_shape (op rd imm : Nat) (h : op < 256) (h0 : rd < 16) (h1 : imm < 256) :
    (opcodeOf (packI op rd imm)).toNat = op ∧ lowNibbleOf (packI op rd imm) = 0 := by
  constructor
  · rw [packI, opcodeOf_ofNat] <;> omega
  · rw [packI, show 0x1000000 * op + 0x100000 * rd + 0x10 * imm = (op * 0x100000 + rd * 0x10000 + imm) * 16 by omega]
    exact lowNibbleOf_ofNat _

namespace EncodeShape

/-- The word of a command carries its opcode in bits 31:24 and zero in bits 3:0 (30_encoding.md R91, R92). -/
def Statement (i : Instr) : Prop := (opcodeOf (encode i)).toNat = opcodeNumber i ∧ lowNibbleOf (encode i) = 0

theorem nop : Statement (.nop) :=
  packR_shape _ _ _ _ _ _ (by decide) (by omega) (by omega) (by omega) (by omega) (by omega)

theorem fadd (d a b : FReg) : Statement (.fadd d a b) :=
  packR_shape _ _ _ _ _ _ (by decide) (by omega) (by omega) (by omega) (by omega) (by omega)

theorem fsub (d a b : FReg) : Statement (.fsub d a b) :=
  packR_shape _ _ _ _ _ _ (by decide) (by omega) (by omega) (by omega) (by omega) (by omega)

theorem fmul (d a b : FReg) : Statement (.fmul d a b) :=
  packR_shape _ _ _ _ _ _ (by decide) (by omega) (by omega) (by omega) (by omega) (by omega)

theorem fsqr (d a : FReg) : Statement (.fsqr d a) :=
  packR_shape _ _ _ _ _ _ (by decide) (by omega) (by omega) (by omega) (by omega) (by omega)

theorem fneg (d a : FReg) : Statement (.fneg d a) :=
  packR_shape _ _ _ _ _ _ (by decide) (by omega) (by omega) (by omega) (by omega) (by omega)

theorem finv (d a : FReg) : Statement (.finv d a) :=
  packR_shape _ _ _ _ _ _ (by decide) (by omega) (by omega) (by omega) (by omega) (by omega)

theorem fisz (a : FReg) : Statement (.fisz a) :=
  packR_shape _ _ _ _ _ _ (by decide) (by omega) (by omega) (by omega) (by omega) (by omega)

theorem feq (a b : FReg) : Statement (.feq a b) :=
  packR_shape _ _ _ _ _ _ (by decide) (by omega) (by omega) (by omega) (by omega) (by omega)

theorem ftob (a : FReg) : Statement (.ftob a) :=
  packR_shape _ _ _ _ _ _ (by decide) (by omega) (by omega) (by omega) (by omega) (by omega)

theorem ffromb (d : FReg) : Statement (.ffromb d) :=
  packR_shape _ _ _ _ _ _ (by decide) (by omega) (by omega) (by omega) (by omega) (by omega)

theorem eadd (d a b : EReg) : Statement (.eadd d a b) :=
  packR_shape _ _ _ _ _ _ (by decide) (by omega) (by omega) (by omega) (by omega) (by omega)

theorem esub (d a b : EReg) : Statement (.esub d a b) :=
  packR_shape _ _ _ _ _ _ (by decide) (by omega) (by omega) (by omega) (by omega) (by omega)

theorem emul (d a b : EReg) : Statement (.emul d a b) :=
  packR_shape _ _ _ _ _ _ (by decide) (by omega) (by omega) (by omega) (by omega) (by omega)

theorem esqr (d a : EReg) : Statement (.esqr d a) :=
  packR_shape _ _ _ _ _ _ (by decide) (by omega) (by omega) (by omega) (by omega) (by omega)

theorem eneg (d a : EReg) : Statement (.eneg d a) :=
  packR_shape _ _ _ _ _ _ (by decide) (by omega) (by omega) (by omega) (by omega) (by omega)

theorem einv (d a : EReg) : Statement (.einv d a) :=
  packR_shape _ _ _ _ _ _ (by decide) (by omega) (by omega) (by omega) (by omega) (by omega)

theorem eisz (a : EReg) : Statement (.eisz a) :=
  packR_shape _ _ _ _ _ _ (by decide) (by omega) (by omega) (by omega) (by omega) (by omega)

theorem eeq (a b : EReg) : Statement (.eeq a b) :=
  packR_shape _ _ _ _ _ _ (by decide) (by omega) (by omega) (by omega) (by omega) (by omega)

theorem etob (a : EReg) : Statement (.etob a) :=
  packR_shape _ _ _ _ _ _ (by decide) (by omega) (by omega) (by omega) (by omega) (by omega)

theorem efromb (d : EReg) : Statement (.efromb d) :=
  packR_shape _ _ _ _ _ _ (by decide) (by omega) (by omega) (by omega) (by omega) (by omega)

theorem econj (d a : EReg) : Statement (.econj d a) :=
  packR_shape _ _ _ _ _ _ (by decide) (by omega) (by omega) (by omega) (by omega) (by omega)

theorem epack (d : EReg) (a b : FReg) : Statement (.epack d a b) :=
  packR_shape _ _ _ _ _ _ (by decide) (by omega) (by omega) (by omega) (by omega) (by omega)

theorem ere (d : FReg) (a : EReg) : Statement (.ere d a) :=
  packR_shape _ _ _ _ _ _ (by decide) (by omega) (by omega) (by omega) (by omega) (by omega)

theorem eim (d : FReg) (a : EReg) : Statement (.eim d a) :=
  packR_shape _ _ _ _ _ _ (by decide) (by omega) (by omega) (by omega) (by omega) (by omega)

theorem pid (d : PReg) : Statement (.pid d) :=
  packR_shape _ _ _ _ _ _ (by decide) (by omega) (by omega) (by omega) (by omega) (by omega)

theorem padd (d a b : PReg) : Statement (.padd d a b) :=
  packR_shape _ _ _ _ _ _ (by decide) (by omega) (by omega) (by omega) (by omega) (by omega)

theorem pdbl (d a : PReg) : Statement (.pdbl d a) :=
  packR_shape _ _ _ _ _ _ (by decide) (by omega) (by omega) (by omega) (by omega) (by omega)

theorem pneg (d a : PReg) : Statement (.pneg d a) :=
  packR_shape _ _ _ _ _ _ (by decide) (by omega) (by omega) (by omega) (by omega) (by omega)

theorem ponc (a : PReg) : Statement (.ponc a) :=
  packR_shape _ _ _ _ _ _ (by decide) (by omega) (by omega) (by omega) (by omega) (by omega)

theorem paffx (d : EReg) (a : PReg) : Statement (.paffx d a) :=
  packR_shape _ _ _ _ _ _ (by decide) (by omega) (by omega) (by omega) (by omega) (by omega)

theorem paffy (d : EReg) (a : PReg) : Statement (.paffy d a) :=
  packR_shape _ _ _ _ _ _ (by decide) (by omega) (by omega) (by omega) (by omega) (by omega)

theorem peq (a b : PReg) : Statement (.peq a b) :=
  packR_shape _ _ _ _ _ _ (by decide) (by omega) (by omega) (by omega) (by omega) (by omega)

theorem pseta (d : PReg) (a b : EReg) : Statement (.pseta d a b) :=
  packR_shape _ _ _ _ _ _ (by decide) (by omega) (by omega) (by omega) (by omega) (by omega)

theorem eonc (a b : EReg) : Statement (.eonc a b) :=
  packR_shape _ _ _ _ _ _ (by decide) (by omega) (by omega) (by omega) (by omega) (by omega)

theorem pphi (d a : PReg) : Statement (.pphi d a) :=
  packR_shape _ _ _ _ _ _ (by decide) (by omega) (by omega) (by omega) (by omega) (by omega)

theorem ppsi (d a : PReg) : Statement (.ppsi d a) :=
  packR_shape _ _ _ _ _ _ (by decide) (by omega) (by omega) (by omega) (by omega) (by omega)

theorem pgen (d : PReg) : Statement (.pgen d) :=
  packR_shape _ _ _ _ _ _ (by decide) (by omega) (by omega) (by omega) (by omega) (by omega)

theorem kfromb (d : KReg) : Statement (.kfromb d) :=
  packR_shape _ _ _ _ _ _ (by decide) (by omega) (by omega) (by omega) (by omega) (by omega)

theorem ktob (a : KReg) : Statement (.ktob a) :=
  packR_shape _ _ _ _ _ _ (by decide) (by omega) (by omega) (by omega) (by omega) (by omega)

theorem kred (d : KReg) : Statement (.kred d) :=
  packR_shape _ _ _ _ _ _ (by decide) (by omega) (by omega) (by omega) (by omega) (by omega)

theorem decomp (a : KReg) : Statement (.decomp a) :=
  packR_shape _ _ _ _ _ _ (by decide) (by omega) (by omega) (by omega) (by omega) (by omega)

theorem qtob : Statement (.qtob) :=
  packR_shape _ _ _ _ _ _ (by decide) (by omega) (by omega) (by omega) (by omega) (by omega)

theorem recode : Statement (.recode) :=
  packR_shape _ _ _ _ _ _ (by decide) (by omega) (by omega) (by omega) (by omega) (by omega)

theorem dtob : Statement (.dtob) :=
  packR_shape _ _ _ _ _ _ (by decide) (by omega) (by omega) (by omega) (by omega) (by omega)

theorem tbuild (a : PReg) : Statement (.tbuild a) :=
  packR_shape _ _ _ _ _ _ (by decide) (by omega) (by omega) (by omega) (by omega) (by omega)

theorem trd (d : PReg) (u : BitVec 8) : Statement (.trd d u) :=
  packI_shape _ _ _ (by decide) (by omega) (BitVec.isLt _)

theorem tsel (d : PReg) (i : BitVec 8) : Statement (.tsel d i) :=
  packI_shape _ _ _ (by decide) (by omega) (BitVec.isLt _)

theorem smul (d : PReg) (a : KReg) (b : PReg) : Statement (.smul d a b) :=
  packR_shape _ _ _ _ _ _ (by decide) (by omega) (by omega) (by omega) (by omega) (by omega)

theorem dsmul (d : PReg) (a : KReg) (b : PReg) (c : KReg) (e : PReg) : Statement (.dsmul d a b c e) :=
  packR_shape _ _ _ _ _ _ (by decide) (by omega) (by omega) (by omega) (by omega) (by omega)

theorem dsmulg (d : PReg) (a b : KReg) (c : PReg) : Statement (.dsmulg d a b c) :=
  packR_shape _ _ _ _ _ _ (by decide) (by omega) (by omega) (by omega) (by omega) (by omega)

theorem penc (a : PReg) : Statement (.penc a) :=
  packR_shape _ _ _ _ _ _ (by decide) (by omega) (by omega) (by omega) (by omega) (by omega)

theorem pdec (d : PReg) : Statement (.pdec d) :=
  packR_shape _ _ _ _ _ _ (by decide) (by omega) (by omega) (by omega) (by omega) (by omega)

end EncodeShape

end Sys2Proof.Laws
end

