-- ==== Sys2Proof/Tests/Slice0.lean ====
section
/-! SUPPORT. Tests: what WellFormed refuses, one word of every command written out from the spec's encoding, one or two
steps for each command from the examples of its rule and from 95_test_vectors.md, and a witness for the hypotheses of
each statement. No value here was taken from the model. -/

namespace Sys2Proof.Tests

-- The kernel checks the theorems below one at a time: a waiting thread each would exhaust the memory limit.
set_option Elab.async false

open Sys2Proof Sys2Proof.Machine
open Sys2Proof.Config (prime)

/-! WellFormed. -/

theorem test_wf_trd_refuses_8 : (Instr.trd 0 8).wf = false := by decide
theorem test_wf_trd_accepts_7 : (Instr.trd 0 7).wf = true := by decide
theorem test_wf_tsel_refuses_65 : (Instr.tsel 0 65).wf = false := by decide
theorem test_wf_tsel_accepts_64 : (Instr.tsel 0 64).wf = true := by decide
theorem test_wf_nop_accepted : Instr.nop.wf = true := by decide

/-! Decoding: the word that the Example of each command's rule prints. -/

theorem test_decode_system : decode 0x00000000 = .ok .nop := by decide

theorem test_decode_primefield :
    decode 0x10123000 = .ok (.fadd 1 2 3) ∧ decode 0x11123000 = .ok (.fsub 1 2 3)
      ∧ decode 0x12201000 = .ok (.fmul 2 0 1) ∧ decode 0x13100000 = .ok (.fsqr 1 0)
      ∧ decode 0x14320000 = .ok (.fneg 3 2) ∧ decode 0x15100000 = .ok (.finv 1 0)
      ∧ decode 0x16050000 = .ok (.fisz 5) ∧ decode 0x17001000 = .ok (.feq 0 1)
      ∧ decode 0x18030000 = .ok (.ftob 3) ∧ decode 0x19400000 = .ok (.ffromb 4) := by decide

theorem test_decode_extfield :
    decode 0x20012000 = .ok (.eadd 0 1 2) ∧ decode 0x21012000 = .ok (.esub 0 1 2)
      ∧ decode 0x22012000 = .ok (.emul 0 1 2) ∧ decode 0x23100000 = .ok (.esqr 1 0)
      ∧ decode 0x24100000 = .ok (.eneg 1 0) ∧ decode 0x25100000 = .ok (.einv 1 0)
      ∧ decode 0x26030000 = .ok (.eisz 3) ∧ decode 0x27001000 = .ok (.eeq 0 1)
      ∧ decode 0x28020000 = .ok (.etob 2) ∧ decode 0x29200000 = .ok (.efromb 2)
      ∧ decode 0x2A100000 = .ok (.econj 1 0) ∧ decode 0x2B123000 = .ok (.epack 1 2 3)
      ∧ decode 0x2C650000 = .ok (.ere 6 5) ∧ decode 0x2D650000 = .ok (.eim 6 5) := by decide

theorem test_decode_curve :
    decode 0x30100000 = .ok (.pid 1) ∧ decode 0x31012000 = .ok (.padd 0 1 2) ∧ decode 0x32210000 = .ok (.pdbl 2 1)
      ∧ decode 0x33100000 = .ok (.pneg 1 0) ∧ decode 0x34000000 = .ok (.ponc 0)
      ∧ decode 0x35730000 = .ok (.paffx 7 3) ∧ decode 0x36100000 = .ok (.paffy 1 0)
      ∧ decode 0x37001000 = .ok (.peq 0 1) ∧ decode 0x38367000 = .ok (.pseta 3 6 7)
      ∧ decode 0x39001000 = .ok (.eonc 0 1) ∧ decode 0x3A100000 = .ok (.pphi 1 0)
      ∧ decode 0x3B100000 = .ok (.ppsi 1 0) ∧ decode 0x3C100000 = .ok (.pgen 1) := by decide

theorem test_decode_scalar :
    decode 0x40000000 = .ok (.kfromb 0) ∧ decode 0x41010000 = .ok (.ktob 1) ∧ decode 0x42200000 = .ok (.kred 2)
      ∧ decode 0x43030000 = .ok (.decomp 3) ∧ decode 0x44000000 = .ok .qtob ∧ decode 0x45000000 = .ok .recode
      ∧ decode 0x46000000 = .ok .dtob := by decide

theorem test_decode_multiplier :
    decode 0x50020000 = .ok (.tbuild 2) ∧ decode 0x51100070 = .ok (.trd 1 7) ∧ decode 0x52300400 = .ok (.tsel 3 64)
      ∧ decode 0x53123000 = .ok (.smul 1 2 3) ∧ decode 0x54001120 = .ok (.dsmul 0 0 1 1 2)
      ∧ decode 0x55312000 = .ok (.dsmulg 3 1 2 0) := by decide

theorem test_decode_codec : decode 0x60010000 = .ok (.penc 1) ∧ decode 0x61200000 = .ok (.pdec 2) := by decide

/-- 95_test_vectors.md 2.1, the illegal words. -/
theorem test_decode_illegal :
    decode 0x01000000 = .error .unassignedOpcode ∧ decode 0x62000000 = .error .unassignedOpcode
      ∧ decode 0xFFFFFFFF = .error .unassignedOpcode ∧ decode 0x00000001 = .error .lowNibble
      ∧ decode 0x10800000 = .error .registerRange ∧ decode 0x10080000 = .error .registerRange
      ∧ decode 0x10000100 = .error .unusedField ∧ decode 0x31400000 = .error .registerRange
      ∧ decode 0x16100000 = .error .unusedField ∧ decode 0x44100000 = .error .unusedField
      ∧ decode 0x51000080 = .error .immediateRange ∧ decode 0x51010070 = .error .unusedField
      ∧ decode 0x52000410 = .error .immediateRange := by decide

/-! One step from a small state. -/

/-- The state after the command word w is run from s; the value for a step that gives no next state fails every test. -/
def run (w : Nat) (s : State) : State :=
  match step (s.withFetchWord 32 w) with
  | .next t => t
  | _ => { State.reset with result := 0xEE, errcmd := 0xEEEEEEEE }

/-- Reset with F[0], F[1]. -/
def stF (a b : Fe) : State := { State.reset with f := #v[a, b, 0, 0, 0, 0, 0, 0] }

/-- Reset with E[0], E[1]. -/
def stE (a b : Fe2) : State :=
  { State.reset with e := #v[a, b, ⟨0, 0⟩, ⟨0, 0⟩, ⟨0, 0⟩, ⟨0, 0⟩, ⟨0, 0⟩, ⟨0, 0⟩] }

/-- Reset with P[0], P[1]. -/
def stP (P Q : Point) : State := { State.reset with p := #v[P, Q, Point.neutral, Point.neutral] }

/-- Reset with K[0], K[1] and P[0]. -/
def stK (a b : Scalar) (P : Point) : State :=
  { State.reset with k := #v[a, b, 0, 0], p := #v[P, Point.neutral, Point.neutral, Point.neutral] }

/-- Reset with the first n bytes of the value v in BUF, and BLEN. -/
def stB (n v : Nat) (len : BitVec 8) : State := { State.reset with buf := Memory.writeLE [] 0 n v, blen := len }

/-- Reset with Q of decompose(1) (95_test_vectors.md 2.6). -/
def stQ : State :=
  { State.reset with
    q := ⟨0x72482C5251A4559D, 0x59F95B0ADD276F6C, 0x7DD2D17C4625FA78, 0x6BC57DEF56CE8877⟩, qv := true }

/-- Affine points of 95_test_vectors.md 2.4. -/
def twoGx : Fe2 := ⟨0x210A7D9F9782A38CDFFD6556D311CE43, 0x58D4179CFC261E7B023C5E59AFC61DF4⟩
def twoGy : Fe2 := ⟨0x2DB3FC78C3D93DFE35A2323D01CB626C, 0x44C04CB98A015452EE7C9525E2919BF8⟩
def threeG : Point := ofAffine ⟨0x6A9819B5C0F0F512821FF2E80DC5E252, 0x1DD2C4814E7439E77F29641B85D56F5C⟩
  ⟨0x6CAADDC6D7B431A8070763C94E098671, 0x771CA389A001970FB4E0F6026423303E⟩
def negGx : Fe2 := ⟨0x65CB8DDC83D04CFAD79A6D5284C7CC55, 0x61E0AAC0D78755636979604C9F538809⟩
def phiG : Point := ofAffine ⟨0x14542876050A87215793875EA482A8CF, 0x78C76AE3F2F9866966F3F8ECE1C52FA9⟩
  ⟨0x633DD6748B0B6A4EED01D3A785EC251E, 0x2D6B42D8B23EF9BD0C77FD16EF6A93B0⟩
def psiG : Point := ofAffine ⟨0x6AC8965B21297CC92743ED860D7263EB, 0x399800AC9047B46B4F6F9EE04C38F0C2⟩
  ⟨0x473C5536AEC070A347BC74C327A20E0B, 0x33D8ECDC45969EF0912B52E7EFDABEE0⟩
/-- V4.3, an exceptional point. -/
def exceptional : Point :=
  ofAffine ⟨0x68341E470FD04BFB7003E48F863F989F, 0x3CAF9CEA9FB2D02C1DAA88C26E99C3EB⟩
    ⟨0x43506315604D2FD3E255773D91663C14, 0x68341E470FD04BFB7003E48F863F989F⟩
/-- The tuple that R164's formulas give for the double of G (95_test_vectors.md 2.4). -/
def twoGtuple : Point where
  X := ⟨0x4FA1B01A82D09CC90CA6F6DEC3E636A1, 0x19424D35305AE84F728365DF7F405266⟩
  Y := ⟨0x65F2516BA0E02CCCF47007B7B1D8A0C6, 0x33BB5A78B35F190B3A63A823ED4668A7⟩
  Z := ⟨0x12FA9AC4E92E2CAF8CBB4426EBE92949, 0x710B1F3406720A0A6008C7981807E885⟩
  T := ⟨0x127B50415B0D80176C56935671F356FE, 0x58E901C08B6456F20FE60BE5A109ADAE⟩
/-- U and V of 95_test_vectors.md 2.3. -/
def vecU : Fe2 := ⟨0x0123456789ABCDEF0123456789ABCDEF, 0x0FEDCBA9876543210FEDCBA987654321⟩
def vecV : Fe2 := ⟨0x7EDCBA9876543210FEDCBA9876543210, 0x00112233445566778899AABBCCDDEEFF⟩

/-! System. -/

/-- R270's Example: RESULT = 2 before. -/
theorem test_nop_clears_result :
    run 0x00000000 { State.reset with result := 2, errcmd := 0x61000000 }
      = { State.reset with errcmd := 0x61000000 } := by decide

/-- 95_test_vectors.md 2.1. -/
theorem test_illegal_word_raises :
    run 0x31400000 State.reset = { State.reset with result := 5, errcmd := 0x31400000 } := by decide

/-! PrimeField (95_test_vectors.md 2.2). -/

theorem test_fadd_wraps_to_zero :
    (run 0x10201000 (stF 0x7FFFFFFFFFFFFFFFFFFFFFFFFFFFFFFE 1)).f[2] = 0
      ∧ (run 0x10201000 (stF 0x40000000000000000000000000000000 0x40000000000000000000000000000000)).f[2] = 1 := by decide
theorem test_fsub_borrows :
    (run 0x11201000 (stF 5 7)).f[2] = 0x7FFFFFFFFFFFFFFFFFFFFFFFFFFFFFFD
      ∧ (run 0x11210000 (stF 5 7)).f[2] = 2 := by decide
theorem test_fmul_reduces :
    (run 0x12201000 (stF 0x0123456789ABCDEF0123456789ABCDEF 0x7EDCBA9876543210FEDCBA9876543210)).f[2]
      = 0x46B059BA497ED1B76A092C4ADC5835E9 := by decide +kernel
theorem test_fmul_of_minus_ones :
    (run 0x12000000 (stF 0x7FFFFFFFFFFFFFFFFFFFFFFFFFFFFFFE 0)).f[0] = 1 := by decide
theorem test_fsqr : (run 0x13100000 (stF 0x10000000000000000 0)).f[1] = 2 := by decide
theorem test_fneg :
    (run 0x14200000 (stF 0 1)).f[2] = 0
      ∧ (run 0x14210000 (stF 0 1)).f[2] = 0x7FFFFFFFFFFFFFFFFFFFFFFFFFFFFFFE := by decide
theorem test_finv_of_three :
    (run 0x15100000 (stF 3 0)).f[1] = 0x55555555555555555555555555555555 := by decide +kernel
/-- P4's first line. -/
theorem test_finv_of_zero_is_fatal :
    run 0x15100000 State.reset = { State.reset with result := 4, halt := true, errcmd := 0x15100000 } := by decide
theorem test_fisz : (run 0x16050000 State.reset).flag = true ∧ (run 0x16010000 (stF 0 1)).flag = false := by decide
theorem test_feq : (run 0x17001000 (stF 5 6)).flag = false ∧ (run 0x17001000 (stF 5 5)).flag = true := by decide
theorem test_ftob :
    let t := run 0x18000000 (stF 0x0123456789ABCDEF0123456789ABCDEF 0)
    t.blen = 16 ∧ Memory.read t.buf 0 = 0xEF ∧ Memory.read t.buf 7 = 0x01 ∧ Memory.read t.buf 15 = 0x01
      ∧ Memory.read t.buf 16 = 0 := by decide +kernel
theorem test_ffromb_of_largest :
    (run 0x19400000 (stB 16 0x7FFFFFFFFFFFFFFFFFFFFFFFFFFFFFFE 16)).f[4]
      = 0x7FFFFFFFFFFFFFFFFFFFFFFFFFFFFFFE := by decide +kernel
theorem test_ffromb_errors :
    (run 0x19400000 (stB 16 0x7FFFFFFFFFFFFFFFFFFFFFFFFFFFFFFF 16)).result = 1
      ∧ (run 0x19400000 (stB 16 0x80000000000000000000000000000000 16)).result = 1
      ∧ (run 0x19400000 (stB 16 0 15)).result = 3 := by decide +kernel

/-! ExtensionField (95_test_vectors.md 2.3). -/

theorem test_eadd :
    (run 0x20201000 (stE ⟨0x7FFFFFFFFFFFFFFFFFFFFFFFFFFFFFFE, 0x7FFFFFFFFFFFFFFFFFFFFFFFFFFFFFFE⟩ ⟨1, 2⟩)).e[2]
      = ⟨0, 1⟩ := by decide
theorem test_esub :
    (run 0x21201000 (stE ⟨0, 0⟩ ⟨1, 1⟩)).e[2]
      = ⟨0x7FFFFFFFFFFFFFFFFFFFFFFFFFFFFFFE, 0x7FFFFFFFFFFFFFFFFFFFFFFFFFFFFFFE⟩ := by decide
theorem test_emul :
    (run 0x22201000 (stE vecU vecV)).e[2]
      = ⟨0x683D7F69B826704F53DE9A4293481CC9, 0x54664338119CA5FBBF3DC31C157C1CC5⟩ := by decide +kernel
theorem test_esqr :
    (run 0x23100000 (stE vecU ⟨0, 0⟩)).e[1]
      = ⟨0x1C989D2A3FDE04B62B63236C3D9779E8, 0x08FA73E43A6553F4CD658E364CC0807B⟩ := by decide +kernel
theorem test_eneg :
    (run 0x24100000 (stE ⟨0, 1⟩ ⟨0, 0⟩)).e[1] = ⟨0, 0x7FFFFFFFFFFFFFFFFFFFFFFFFFFFFFFE⟩ := by decide
theorem test_einv :
    (run 0x25100000 (stE vecU ⟨0, 0⟩)).e[1]
      = ⟨0x323625B94DC9295AEF08249FD521A9E0, 0x04E2E45EA39D823DD4F0D6A111A72895⟩ := by decide +kernel
theorem test_einv_of_zero_is_fatal :
    run 0x25100000 State.reset = { State.reset with result := 4, halt := true, errcmd := 0x25100000 } := by decide
theorem test_eisz : (run 0x26030000 State.reset).flag = true ∧ (run 0x26000000 (stE ⟨0, 1⟩ ⟨0, 0⟩)).flag = false := by
  decide
theorem test_eeq :
    (run 0x27001000 (stE ⟨2, 3⟩ ⟨2, 3⟩)).flag = true ∧ (run 0x27001000 (stE ⟨2, 3⟩ ⟨2, 4⟩)).flag = false := by decide
theorem test_etob :
    let t := run 0x28000000 (stE ⟨2, 3⟩ ⟨0, 0⟩)
    t.blen = 32 ∧ t.buf = [(0, 2), (16, 3)] := by decide +kernel
theorem test_efromb : (run 0x29200000 { State.reset with buf := [(0, 2), (16, 3)], blen := 32 }).e[2] = ⟨2, 3⟩ := by
  decide +kernel
theorem test_efromb_checks_bit_127 :
    (run 0x29200000 { State.reset with buf := [(31, 0x80)], blen := 32 }).result = 1 := by decide +kernel
theorem test_econj :
    (run 0x2A100000 (stE vecU ⟨0, 0⟩)).e[1]
      = ⟨0x0123456789ABCDEF0123456789ABCDEF, 0x70123456789ABCDEF0123456789ABCDE⟩ := by decide
theorem test_epack : (run 0x2B101000 (stF 7 9)).e[1] = ⟨7, 9⟩ := by decide
theorem test_ere : (run 0x2C600000 (stE ⟨7, 9⟩ ⟨0, 0⟩)).f[6] = 7 := by decide
theorem test_eim : (run 0x2D600000 (stE ⟨7, 9⟩ ⟨0, 0⟩)).f[6] = 9 := by decide

/-! CurvePoint (95_test_vectors.md 2.4). -/

theorem test_pid : (run 0x30100000 (stP generator generator)).p[1] = ⟨⟨0, 0⟩, ⟨1, 0⟩, ⟨1, 0⟩, ⟨0, 0⟩⟩ := by decide
theorem test_padd :
    sameAffine (run 0x31201000 (stP generator (ofAffine twoGx twoGy))).p[2] threeG = true := by decide +kernel
theorem test_pdbl : (run 0x32100000 (stP generator Point.neutral)).p[1] = twoGtuple := by decide +kernel
theorem test_pneg :
    (run 0x33100000 (stP generator Point.neutral)).p[1] = ofAffine negGx genY := by decide +kernel
theorem test_ponc : (run 0x34000000 State.reset).flag = true := by decide +kernel
theorem test_ponc_of_zero_tuple :
    (run 0x34000000 (stP ⟨⟨0, 0⟩, ⟨0, 0⟩, ⟨0, 0⟩, ⟨0, 0⟩⟩ Point.neutral)).flag = false := by decide +kernel
theorem test_paffx : (run 0x35700000 (stP twoGtuple Point.neutral)).e[7] = twoGx := by decide +kernel
theorem test_paffy : (run 0x36100000 (stP twoGtuple Point.neutral)).e[1] = twoGy := by decide +kernel
theorem test_peq :
    (run 0x37001000 (stP twoGtuple (ofAffine twoGx twoGy))).flag = true
      ∧ (run 0x37001000 (stP generator Point.neutral)).flag = false := by decide +kernel
/-- V4.1. -/
theorem test_pseta_off_the_curve : (run 0x38300000 (stE ⟨1, 0⟩ ⟨0, 0⟩)).result = 2 := by decide +kernel
/-- V4.2. -/
theorem test_pseta :
    (run 0x38301000 (stE ⟨0, 0⟩ ⟨0x7FFFFFFFFFFFFFFFFFFFFFFFFFFFFFFE, 0⟩)).p[3]
      = ⟨⟨0, 0⟩, ⟨0x7FFFFFFFFFFFFFFFFFFFFFFFFFFFFFFE, 0⟩, ⟨1, 0⟩, ⟨0, 0⟩⟩ := by decide +kernel
theorem test_eonc :
    (run 0x39001000 (stE ⟨0, 0⟩ ⟨0x7FFFFFFFFFFFFFFFFFFFFFFFFFFFFFFE, 0⟩)).flag = true
      ∧ (run 0x39001000 (stE ⟨1, 0⟩ ⟨1, 0⟩)).flag = false := by decide +kernel
theorem test_pphi : sameAffine (run 0x3A100000 (stP generator Point.neutral)).p[1] phiG = true := by decide +kernel
theorem test_pphi_exceptional :
    run 0x3A100000 (stP exceptional Point.neutral)
      = { stP exceptional Point.neutral with result := 7, errcmd := 0x3A100000 } := by decide +kernel
theorem test_ppsi : sameAffine (run 0x3B100000 (stP generator Point.neutral)).p[1] psiG = true := by decide +kernel
theorem test_ppsi_exceptional :
    run 0x3B100000 (stP exceptional Point.neutral)
      = { stP exceptional Point.neutral with result := 7, errcmd := 0x3B100000 } := by decide +kernel
theorem test_pgen :
    (run 0x3C100000 State.reset).p[1].T
      = ⟨0x35BFA1947FB0913E894BA36EE8CEE416, 0x7BFB41A38E7076AC673C574D296CD8D0⟩ := by decide +kernel

/-! Scalar (95_test_vectors.md 2.6). -/

theorem test_kfromb : (run 0x40000000 (stB 32 2 32)).k[0] = 2 := by decide +kernel
theorem test_kfromb_length : (run 0x40000000 (stB 32 2 64)).result = 3 := by decide +kernel
theorem test_ktob :
    let t := run 0x41000000 (stK 0x0102 0 Point.neutral)
    t.blen = 32 ∧ t.buf = [(0, 2), (1, 1)] := by decide +kernel
theorem test_kred_of_64_bytes :
    (run 0x42200000 (stB 64 (2 ^ 512 - 1) 64)).k[2]
      = 0x0006A5F16AC8F9D33D01B7C72136F61C173EA5AAEA6B387DC81DB8795FF3D620 := by decide +kernel
theorem test_kred_of_order :
    (run 0x42200000 (stB 32 0x0029CBC14E5E0A72F05397829CBC14E5DFBD004DFE0F79992FB2540EC7768CE7 32)).k[2] = 0 := by
  decide +kernel
theorem test_decomp :
    (run 0x43000000 (stK 1 0 Point.neutral)).q = stQ.q := by decide +kernel
theorem test_decomp_of_largest :
    (run 0x43000000 (stK (BitVec.allOnes 256) 0 Point.neutral)).q
      = ⟨0xE33CC52146785F3D, 0x919FD9C8B35081BF, 0x4C81A148B78146F6, 0x73DADFB8D07AF493⟩ := by decide +kernel
theorem test_qtob :
    let t := run 0x44000000 stQ
    t.blen = 64 ∧ Memory.read t.buf 0 = 0x9D ∧ Memory.read t.buf 16 = 0x6C ∧ Memory.read t.buf 39 = 0x7D
      ∧ Memory.read t.buf 48 = 0x77 ∧ Memory.read t.buf 56 = 0 := by decide +kernel
theorem test_qtob_not_ready : (run 0x44000000 State.reset).result = 6 := by decide
theorem test_recode :
    let t := run 0x45000000 stQ
    t.dig[0] = ⟨true, 4⟩ ∧ t.dig[3] = ⟨false, 7⟩ ∧ t.dig[63] = ⟨true, 7⟩ ∧ t.dig[64] = ⟨false, 7⟩ ∧ t.dv = true := by
  decide +kernel
theorem test_recode_not_ready : (run 0x45000000 State.reset).result = 6 := by decide
theorem test_dtob :
    let t := run 0x46000000 { State.reset with dig := Vector.replicate 65 ⟨true, 4⟩, dv := true }
    t.blen = 65 ∧ Memory.read t.buf 0 = 0x84 ∧ Memory.read t.buf 64 = 0x84 ∧ Memory.read t.buf 65 = 0 := by
  decide +kernel
theorem test_dtob_not_ready : (run 0x46000000 stQ).result = 6 := by decide

/-! Multiplier (95_test_vectors.md 2.7). -/

/-- A table whose entries 0 and 7 are G and [2]G, and digits that all are -T[7]. -/
def stT : State :=
  { State.reset with
    t := #v[generator, Point.neutral, Point.neutral, Point.neutral, Point.neutral, Point.neutral, Point.neutral, threeG],
    tv := true, dig := Vector.replicate 65 ⟨true, 7⟩, dv := true }

/-- T[0] is G, T[1] is [1 + LAMBDA_PHI]G with the encoding that section 2.7 prints. -/
theorem test_tbuild :
    let t := run 0x50000000 (stP generator Point.neutral)
    t.tv = true ∧ t.t[0] = generator
      ∧ encodedPoint (affineX t.t[1]) (affineY t.t[1])
        = 0x6700F5308CB8F5583E09A66724226CF3551C3439534E6A26CE5CF153D31B5AAA := by decide +kernel
theorem test_tbuild_exceptional :
    run 0x50000000 (stP exceptional Point.neutral)
      = { stP exceptional Point.neutral with result := 7, errcmd := 0x50000000 } := by decide +kernel
theorem test_trd : (run 0x51100070 stT).p[1] = threeG := by decide +kernel
theorem test_trd_not_ready : (run 0x51100070 State.reset).result = 6 := by decide
theorem test_tsel_negates : (run 0x52300400 stT).p[3] = pneg threeG := by decide +kernel
theorem test_tsel_not_ready : (run 0x52000000 { stT with dv := false }).result = 6 := by decide
/-- k = 2, P = G: the encoding of [2]G, and the valid bits. -/
theorem test_smul :
    let t := run 0x53300000 (stK 2 0 generator)
    statusWord t = 0xE0 ∧ sameAffine t.p[3] (ofAffine twoGx twoGy) = true := by decide +kernel
theorem test_smul_by_zero :
    sameAffine (run 0x53300000 (stK 0 0 generator)).p[3] Point.neutral = true := by decide +kernel
/-- [1]G + [2]G = [3]G by the group law (43_curvepoint.md R177). -/
theorem test_dsmul :
    sameAffine (run 0x54300100 (stK 1 2 generator)).p[3] threeG = true := by decide +kernel
theorem test_dsmulg :
    let t := run 0x55301000 (stK 1 2 generator)
    statusWord t = 0xF0 ∧ sameAffine t.p[3] threeG = true := by decide +kernel
theorem test_smul_exceptional : (run 0x53300000 (stK 2 0 exceptional)).result = 7 := by decide +kernel

/-! Codec (95_test_vectors.md 2.5). -/

theorem test_penc_of_negative_generator :
    let t := run 0x60000000 (stP (ofAffine negGx genY) Point.neutral)
    t.blen = 32 ∧ Memory.read t.buf 0 = 0x87 ∧ Memory.read t.buf 16 = 0x5C ∧ Memory.read t.buf 31 = 0xEE := by
  decide +kernel
theorem test_penc_of_two_g :
    let t := run 0x60000000 (stP twoGtuple Point.neutral)
    Memory.read t.buf 0 = 0x6C ∧ Memory.read t.buf 15 = 0x2D ∧ Memory.read t.buf 31 = 0x44 := by decide +kernel
theorem test_pdec_y_four :
    (run 0x61200000 (stB 32 4 32)).p[2].X
      = ⟨0x0D7B4805827D284927A44FEDAAA53202, 0x68A10D192D03FC7C5CEA27B7EF1829EC⟩ := by decide +kernel
theorem test_pdec_errors :
    (run 0x61200000 (stB 32 2 32)).result = 2 ∧ (run 0x61200000 (stB 32 (1 + 2 ^ 255) 32)).result = 2
      ∧ (run 0x61200000 (stB 32 (2 ^ 127 - 1) 32)).result = 1 ∧ (run 0x61200000 (stB 32 1 33)).result = 3 := by
  decide +kernel

/-! The host port. -/

/-- Idle, with one access of the host to come. -/
def stHost (x : HostAccess) : State := { State.reset with inbox := [⟨x, false⟩] }

/-- The state after one step; a step that gives no next state fails every test. -/
def after (s : State) : State :=
  match step s with
  | .next t => t
  | _ => { State.reset with result := 0xEE }

/-- P1: HostWrite(0x10, 16). -/
theorem test_host_writes_blen : (after (stHost (.write 0x10 0x110))).blen = 16 := by decide
/-- R68. -/
theorem test_host_writes_buf_little_endian :
    (after (stHost (.write 0x84 0x04030201))).buf = [(4, 1), (5, 2), (6, 3), (7, 4)] := by decide +kernel
/-- R69: not a multiple of 4; R67: above the map. -/
theorem test_host_bad_offsets :
    step (stHost (.read 0x86)) = .refused (.hostAddressMisaligned 0x86)
      ∧ step (stHost (.read 0x100)) = .fault (.hostAddressOutside 0x100) := ⟨rfl, rfl⟩
/-- P4: STATUS = 04 after a fatal error, and a command is ignored. -/
theorem test_halted_core :
    (after { stHost (.read 0x04) with halt := true, result := 4 }).readData = 4
      ∧ (after { stHost (.write 0x00 0) with halt := true, result := 4 }).running = none := by decide

/-! Witnesses: for each statement with hypotheses, states and operands that meet them, a clause at its boundary. -/

/-- BUSY = 1 on the word w, with these accesses to come. -/
def busyOn (w : Word) (inbox : List HostEvent) : State := { State.reset with running := some w, inbox := inbox }

/-- Idle, with these accesses to come. -/
def idleWith (inbox : List HostEvent) : State := { State.reset with inbox := inbox }

/-- HALT = 1 after a FINV of 0, with these accesses to come. -/
def haltedWith (inbox : List HostEvent) : State :=
  { State.reset with halt := true, result := 4, errcmd := 0x15100000, inbox := inbox }

theorem witness_DecodeOfEncodeIsIdentity :
    (Instr.trd 3 7).wf = true ∧ (Instr.tsel 3 64).wf = true ∧ (Instr.pdec 3).wf = true := by decide

theorem witness_EachLegalWordHasOneReading :
    decode 0x51300070 = .ok (.trd 3 7) ∧ decode 0x52300400 = .ok (.tsel 3 64) := by decide

theorem witness_LegalWordsAreTheTables :
    decode 0x52300400 = .ok (.tsel 3 64) ∧ (0x52300400 : Word) &&& 0xFFCFF80F = 0x52000000
      ∧ (((0x52300400 : Word) >>> 4) &&& 0xFF).toNat ≤ 64 ∧ (∃ r ∈ tableRows, (0x61300000 : Word) &&& r.1 = r.2) := by
  decide +kernel

theorem witness_IllegalWordRaisesIllegalCommand :
    (busyOn 0x52000410 []).running = some 0x52000410 ∧ decode 0x52000410 = .error .immediateRange
      ∧ ((0x1A000000 : Word) >>> 24).toNat ∉ [0x00] ++ List.range' 0x10 10 ++ List.range' 0x20 14
        ++ List.range' 0x30 13 ++ List.range' 0x40 7 ++ List.range' 0x50 6 ++ List.range' 0x60 2 := by decide

/-- No access to come, or one that waits for BUSY = 0. -/
theorem witness_NoOverlap (w : Word) (x : HostAccess) :
    NoOverlap (busyOn w []) ∧ NoOverlap (busyOn w [⟨x, false⟩]) := by
  constructor <;> intro y rest h <;> simp [busyOn] at h

theorem witness_StepRunsDecodedCommand :
    ((busyOn 0x10123000 []).running = some 0x10123000 ∧ decode 0x10123000 = .ok (.fadd 1 2 3))
      ∧ (let s := idleWith [⟨.write 0 0x10123000, false⟩]
        s.running = none ∧ s.halt = false ∧ s.inbox = ⟨.write 0 0x10123000, false⟩ :: [])
      ∧ (State.reset.running = none ∧ State.reset.inbox = []) := by decide

/-- The external reset during a command, and CTRL writes with SRST, without and with CLROVR, and CLROVR above it. -/
theorem witness_ResetActsFromEveryState :
    (busyOn 0x53001000 [⟨.reset, true⟩]).inbox = ⟨.reset, true⟩ :: []
      ∧ (haltedWith [⟨.write 0x14 1, false⟩]).running = none ∧ (1 : Word).getLsbD 0 = true
      ∧ (3 : Word).getLsbD 0 = true ∧ (0xFFFFFFFF : Word).getLsbD 0 = true := by decide

/-- BUF words 0 and 31, offsets 0 and 63; CTRL words with SRST, with CLROVR alone, with neither. -/
theorem witness_HaltedCoreIgnoresCommands (x : HostAccess) (o : Bool) :
    (haltedWith [⟨x, o⟩]).halt = true ∧ (haltedWith [⟨x, o⟩]).running = none
      ∧ (haltedWith [⟨x, o⟩]).inbox = ⟨x, o⟩ :: [] ∧ (0 < 32 ∧ 31 < 32) ∧ (0 < 64 ∧ 63 < 64)
      ∧ (3 : Word).getLsbD 0 = true ∧ ((2 : Word).getLsbD 0 = false ∧ (2 : Word).getLsbD 1 = true)
      ∧ (0xFFFFFFFC : Word).getLsbD 0 = false ∧ (0xFFFFFFFC : Word).getLsbD 1 = false := by
  simp [haltedWith, State.reset]

/-- Offsets 0x00, 0x10, 0x80, 0xFC (dropped), 0x14 (CTRL), 0x04, 0x0C, 0x18, 0x7C (ignored). -/
theorem witness_WritesWhileBusyAreDropped (m : Nat) (w : Word) :
    (busyOn 0 [⟨.write (4 * m) w, true⟩]).running = some 0
      ∧ (busyOn 0 [⟨.write (4 * m) w, true⟩]).inbox = ⟨.write (4 * m) w, true⟩ :: []
      ∧ ∀ k ∈ [0, 4, 32, 63, 5, 1, 3, 6, 31], k < 64 := by
  simp [busyOn]

/-- Offsets 0x04, 0x10, 0x80, 0xFC (free), 0x00, 0x14, 0x7C (zero). -/
theorem witness_ReadsWhileBusyAreUnspecified (m : Nat) :
    (busyOn 0 [⟨.read (4 * m), true⟩]).running = some 0
      ∧ (busyOn 0 [⟨.read (4 * m), true⟩]).inbox = ⟨.read (4 * m), true⟩ :: []
      ∧ ∀ k ∈ [1, 4, 32, 63, 0, 5, 31], k < 64 := by
  simp [busyOn]

theorem witness_HostReadsReturnTheTabledValues (m : Nat) (o : Bool) :
    (idleWith [⟨.read (4 * m), o⟩]).running = none ∧ (idleWith [⟨.read (4 * m), o⟩]).inbox = ⟨.read (4 * m), o⟩ :: []
      ∧ ∀ k ∈ [0, 1, 2, 3, 4, 5, 31, 32, 63], k < 64 := by
  simp [idleWith, State.reset]

theorem witness_HostWritesHaveTheTabledEffects (m : Nat) (w : Word) (o : Bool) :
    (idleWith [⟨.write (4 * m) w, o⟩]).running = none
      ∧ (idleWith [⟨.write (4 * m) w, o⟩]).inbox = ⟨.write (4 * m) w, o⟩ :: []
      ∧ ∀ k ∈ [0, 1, 3, 4, 5, 6, 31], k < 32 := by
  simp [idleWith, State.reset]

/-- The first and the last word of the window: a write with nothing after it, a read, a write with the read after it. -/
theorem witness_BufWindowIsLittleEndian (w : Word) (o o' : Bool) :
    (∀ m ∈ [0, 31], m < 32)
      ∧ (∀ m x, (x = HostAccess.write (0x80 + 4 * m) w ∨ x = HostAccess.read (0x80 + 4 * m)) →
        (idleWith [⟨x, o⟩]).running = none ∧ (idleWith [⟨x, o⟩]).inbox = ⟨x, o⟩ :: [])
      ∧ (idleWith [⟨.write 0xFC w, o⟩, ⟨.read 0xFC, o'⟩]).running = none
      ∧ (idleWith [⟨.write 0xFC w, o⟩, ⟨.read 0xFC, o'⟩]).inbox
        = ⟨.write (0x80 + 4 * 31) w, o⟩ :: ⟨.read (0x80 + 4 * 31), o'⟩ :: [] := by
  simp [idleWith, State.reset]

/-- A recoverable error and the fatal one. -/
theorem witness_FailedCommandHasNoPartialEffect :
    exec .qtob State.reset = .next { State.reset with result := 6, errcmd := 0x44000000 }
      ∧ exec (.finv 1 0) State.reset = .next { State.reset with result := 4, errcmd := 0x15100000, halt := true } :=
  ⟨rfl, rfl⟩

/-- A command that succeeds and one that raises. -/
theorem witness_CommandsRaiseOnlyTheirErrors :
    (exec .nop State.reset = .next State.reset ∧ Instr.nop.wf = true)
      ∧ exec (.trd 0 7) State.reset = .next { State.reset with result := 6, errcmd := 0x51000070 }
        ∧ (Instr.trd 0 7).wf = true := ⟨⟨rfl, rfl⟩, rfl, rfl⟩

theorem witness_CommandsWriteOnlyTheirFiles :
    exec .nop State.reset = .next State.reset ∧ ∀ n ∈ [0, 1, 2, 3, 4, 5, 6, 7, 8], n ∉ writesOf .nop := by
  exact ⟨rfl, by decide⟩

/-- All four valid bits set, Q not written. -/
theorem witness_ValidBitsAreSetByTheirCommandsOnly :
    let s := { stQ with dv := true, tv := true, gtv := true }
    exec .nop s = .next s ∧ 4 ∉ writesOf .nop ∧ 5 ∉ writesOf .nop ∧ 6 ∉ writesOf .nop :=
  ⟨rfl, by decide⟩

theorem witness_FlagAndGtvAreNeverRead :
    exec (.fisz 0) State.reset = .next { State.reset with flag := true } ∧ exec .nop State.reset = .next State.reset :=
  ⟨rfl, rfl⟩

/-- All valid bits set, a canonical byte in BUF, about to run RECODE. -/
def invState : State :=
  { stQ with
    dig := Vector.replicate 65 ⟨true, 3⟩ |>.set 64 ⟨false, 7⟩, dv := true, tv := true, gtv := true, buf := [(127, 1)],
    running := some 0x45000000 }

theorem witness_EveryStepKeepsTheInvariant :
    invState.Inv ∧ ∃ t, step invState = .next t := by
  refine ⟨⟨?_, ?_, ?_, ?_, ?_, ?_, ?_⟩, ?_⟩
  · decide +kernel
  · decide
  · decide
  · decide
  · decide
  · decide +kernel
  · decide
  · exact ⟨_, rfl⟩

theorem witness_NopOnlyClearsResult :
    (haltedWith [⟨.write 0 (encode .nop), false⟩]).halt = true
      ∧ (haltedWith [⟨.write 0 (encode .nop), false⟩]).running = none
      ∧ (haltedWith [⟨.write 0 (encode .nop), false⟩]).inbox = ⟨.write 0 (encode .nop), false⟩ :: [] := by
  exact ⟨rfl, rfl, rfl⟩

/-- p, (p - 1)^2 and the largest number below 2^254. -/
theorem witness_ReducerIsRemainder :
    prime < 2 ^ 254 ∧ (prime - 1) * (prime - 1) < 2 ^ 254 ∧ 2 ^ 254 - 1 < 2 ^ 254 := by decide +kernel

/-- 0 and p - 1. -/
theorem witness_PrimeFieldArithmeticIsExact :
    let s := stF 0 0x7FFFFFFFFFFFFFFFFFFFFFFFFFFFFFFE
    FeCanonical s.f[0] ∧ FeCanonical s.f[1] := by decide

/-- 0, 1 and p - 1. -/
theorem witness_PrimeFieldInverse :
    let s := stF 1 0x7FFFFFFFFFFFFFFFFFFFFFFFFFFFFFFE
    s.f[2] = 0 ∧ (FeCanonical s.f[0] ∧ s.f[0] ≠ 0) ∧ FeCanonical s.f[1] ∧ s.f[1] ≠ 0 := by decide

/-- Lengths 15 and 17; the values p, p - 1. -/
theorem witness_FieldElementFromBytes :
    (stB 16 0 15).blen ≠ 16 ∧ (stB 16 0 17).blen ≠ 16
      ∧ ((stB 16 (2 ^ 127 - 1) 16).blen = 16 ∧ prime ≤ memValue (stB 16 (2 ^ 127 - 1) 16).buf 0 16)
      ∧ (stB 16 (2 ^ 127 - 2) 16).blen = 16 ∧ memValue (stB 16 (2 ^ 127 - 2) 16).buf 0 16 < prime := by decide +kernel

theorem witness_ByteRoundTripsReproduceTheString :
    ((stB 16 (2 ^ 127 - 2) 16).blen = 16 ∧ memValue (stB 16 (2 ^ 127 - 2) 16).buf 0 16 < prime)
      ∧ (let s := stB 32 (2 ^ 128 * (2 ^ 127 - 2)) 32
        s.blen = 32 ∧ memValue s.buf 0 16 < prime ∧ memValue s.buf 16 16 < prime) := by decide +kernel

/-- (0, 0), and the two with one zero component. -/
theorem witness_ExtFieldInverse :
    let s := stE ⟨0, 1⟩ ⟨0x7FFFFFFFFFFFFFFFFFFFFFFFFFFFFFFE, 0⟩
    s.e[2] = ⟨0, 0⟩ ∧ (Fe2Canonical s.e[0] ∧ s.e[0] ≠ ⟨0, 0⟩) ∧ Fe2Canonical s.e[1] ∧ s.e[1] ≠ ⟨0, 0⟩ := by decide

/-- Length 31; p in the one half, then in the other; p - 1 in both. -/
theorem witness_ExtElementBytes :
    (stB 32 0 31).blen ≠ 32 ∧ ((stB 32 (2 ^ 127 - 1) 32).blen = 32 ∧ prime ≤ memValue (stB 32 (2 ^ 127 - 1) 32).buf 0 16)
      ∧ prime ≤ memValue (stB 32 (2 ^ 128 * (2 ^ 127 - 1)) 32).buf 16 16
      ∧ (let s := stB 32 ((2 ^ 128 + 1) * (2 ^ 127 - 2)) 32
        s.blen = 32 ∧ memValue s.buf 0 16 < prime ∧ memValue s.buf 16 16 < prime) := by decide +kernel

/-- G, O, the opposite of G, and the double of G with Z other than 1. -/
theorem witness_PointAdditionIsTheAffineSum :
    GoodPoint (stP generator (pneg generator)).p[0] ∧ GoodPoint (stP generator (pneg generator)).p[1]
      ∧ GoodPoint (stP generator twoGtuple).p[1] ∧ GoodPoint State.reset.p[0] := by decide +kernel

theorem witness_DoublingAndNegation :
    GoodPoint (stP twoGtuple Point.neutral).p[0] ∧ GoodPoint (stP twoGtuple Point.neutral).p[1] := by decide +kernel

theorem witness_GroupLawIdentities : GoodPoint generator ∧ GoodPoint twoGtuple ∧ GoodPoint Point.neutral := by
  decide +kernel

/-- Z = (0, 0), and Z other than (0, 0) with a zero component. -/
theorem witness_AffineConversionDividesByZ :
    let s := stP ⟨⟨0, 0⟩, ⟨0, 0⟩, ⟨0, 0⟩, ⟨0, 0⟩⟩ ⟨⟨0, 0⟩, ⟨1, 0⟩, ⟨0, 1⟩, ⟨0, 0⟩⟩
    s.p[0].Z = ⟨0, 0⟩ ∧ PointCanonical s.p[1] ∧ s.p[1].Z ≠ ⟨0, 0⟩ := by decide

/-- (0, -1) on the curve, (1, 1) off it. -/
theorem witness_CheckedPointConstruction :
    let s := stE ⟨0, 0⟩ ⟨0x7FFFFFFFFFFFFFFFFFFFFFFFFFFFFFFE, 0⟩
    affineOnCurve s.e[0] s.e[1] = true ∧ Fe2Canonical s.e[0] ∧ Fe2Canonical s.e[1]
      ∧ affineOnCurve ⟨1, 0⟩ ⟨1, 0⟩ = false := by decide +kernel

/-- A tuple (0, c, c, 0) of O with c other than 1 (45_multiplier.md R229). -/
def scaledNeutral : Point := ⟨⟨0, 0⟩, ⟨3, 5⟩, ⟨3, 5⟩, ⟨0, 0⟩⟩

/-- G, and O as another tuple than the neutral one. -/
theorem witness_EndomorphismsCompleteOffExceptionalPoints :
    let s := stP generator scaledNeutral
    ((phi s.p[0]).Z ≠ ⟨0, 0⟩ ∧ (psi s.p[0]).Z ≠ ⟨0, 0⟩)
      ∧ (phi s.p[1]).Z ≠ ⟨0, 0⟩ ∧ (psi s.p[1]).Z ≠ ⟨0, 0⟩ ∧ GoodPoint s.p[1]
      ∧ sameAffine s.p[1] Point.neutral = true := by decide +kernel

/-- c = i, the double of G beside G; each of the commands has P[0] and answers a next state. -/
theorem witness_OnlyTheAffinePointShows :
    (Fe2Canonical ⟨0, 1⟩ ∧ (⟨0, 1⟩ : Fe2) ≠ ⟨0, 0⟩ ∧ PointCanonical (stP twoGtuple generator).p[0]
        ∧ (stP twoGtuple generator).p[0].Z ≠ ⟨0, 0⟩ ∧ (∀ b : PReg, PointCanonical (stP twoGtuple generator).p[b]))
      ∧ ∀ i ∈ [Instr.paffx 0 0, .paffy 0 0, .penc 0, .ponc 0, .peq 0 1, .peq 1 0, .peq 0 0],
        ∃ t, exec i (stP twoGtuple generator) = .next t := by
  refine ⟨by decide +kernel, ?_⟩
  intro i h
  simp only [List.mem_cons, List.not_mem_nil, or_false] at h
  have hz : (State.rdP (stP twoGtuple generator) 0).Z ≠ ezero := by decide
  rcases h with rfl | rfl | rfl | rfl | rfl | rfl | rfl
  · exact ⟨_, by rw [exec, execPaffx, if_neg hz]; rfl⟩
  · exact ⟨_, by rw [exec, execPaffy, if_neg hz]; rfl⟩
  · exact ⟨_, by rw [exec, execPenc, if_neg hz]; rfl⟩
  · exact ⟨_, rfl⟩
  · exact ⟨_, rfl⟩
  · exact ⟨_, rfl⟩
  · exact ⟨_, rfl⟩

/-- Lengths 31 and 32. -/
theorem witness_ScalarBytes : (stB 32 0 31).blen ≠ 32 ∧ (stB 32 (2 ^ 256 - 1) 32).blen = 32 := by decide

/-- Lengths 33, 32 and 64. -/
theorem witness_ScalarReduction :
    ((stB 33 0 33).blen ≠ 32 ∧ (stB 33 0 33).blen ≠ 64) ∧ (stB 32 0 32).blen.toNat = 32
      ∧ (stB 64 0 64).blen.toNat = 64 := by decide

/-- QV = 0 at reset; the Q of decompose(1), and the largest lanes. -/
theorem witness_RecodingRepresentsTheLanes :
    State.reset.qv = false
      ∧ (stQ.qv = true ∧ 0 ≤ stQ.q.a1.toInt ∧ 0 ≤ stQ.q.a2.toInt ∧ 0 ≤ stQ.q.a3.toInt ∧ 0 ≤ stQ.q.a4.toInt
        ∧ stQ.q.a1.toInt % 2 = 1)
      ∧ (0 ≤ (0xFFFFFFFFFFFFFFFF : Lane).toInt ∧ (0xFFFFFFFFFFFFFFFF : Lane).toInt % 2 = 1) := by decide

theorem witness_QuadAndDigitBytes :
    (State.reset.qv = false ∧ State.reset.dv = false) ∧ stQ.qv = true ∧ stT.dv = true := by decide

theorem witness_TableHoldsTheEightCombinations :
    NotExceptional (stP generator Point.neutral).p[0] ∧ NotExceptional (stP generator Point.neutral).p[1] := by
  decide +kernel

/-- imm8 = 8 and 7, 65 and 64; valid bits 0 and 1. -/
theorem witness_TableEntriesAreRead :
    (7 < (8 : BitVec 8).toNat ∧ (7 : BitVec 8).toNat ≤ 7 ∧ (7 : BitVec 8).toNat < 8 ∧ stT.tv = true
      ∧ State.reset.tv = false)
      ∧ (64 < (65 : BitVec 8).toNat ∧ (64 : BitVec 8).toNat ≤ 64 ∧ (64 : BitVec 8).toNat < 65 ∧ stT.dv = true
        ∧ ({ stT with dv := false } : State).dv = false) := by decide

theorem witness_MultiplicationEqualsItsParts :
    (2 : PReg) ≠ 3 ∧ NotExceptional (stK (BitVec.allOnes 256) 0 generator).p[0] := by decide +kernel

theorem witness_DoubleMultiplicationAddsTheProducts :
    NotExceptional (stK 1 2 generator).p[0] ∧ NotExceptional (stK 1 2 generator).p[1] := by decide +kernel

/-- V4.3 is exceptional for PHI and for PSI, so no table is built from it. -/
theorem witness_ExceptionalPointsRaise :
    let s := stP exceptional Point.neutral
    (phi s.p[0]).Z = ⟨0, 0⟩ ∧ (psi s.p[0]).Z = ⟨0, 0⟩ ∧ ¬NotExceptional s.p[0] := by decide +kernel

/-- The neutral tuple and another tuple of O. -/
theorem witness_MultipleOfIdentityIsIdentity :
    (GoodPoint State.reset.p[0] ∧ sameAffine State.reset.p[0] Point.neutral = true)
      ∧ GoodPoint (stP scaledNeutral generator).p[0]
      ∧ sameAffine (stP scaledNeutral generator).p[0] Point.neutral = true := by decide +kernel

/-- Z = (0, 0), and the double of G. -/
theorem witness_PointEncoding :
    let s := stP ⟨⟨0, 0⟩, ⟨0, 0⟩, ⟨0, 0⟩, ⟨0, 0⟩⟩ twoGtuple
    s.p[0].Z = ⟨0, 0⟩ ∧ s.p[1].Z ≠ ⟨0, 0⟩ := by decide

/-- The bytes of -G (95_test_vectors.md 2.5), with its affine coordinates. -/
theorem witness_DecodingAnEncodedPointGivesIt :
    let s := stB 32 0xEE1C4AF8630E024249A7C344844C8B5C0E3FEE9BA120785AB924A2462BCBB287 32
    Fe2Canonical negGx ∧ Fe2Canonical genY ∧ affineOnCurve negGx genY = true ∧ s.blen = 32
      ∧ memValue s.buf 0 32 = genY.re.toNat + 2 ^ 128 * genY.im.toNat + 2 ^ 255 * (xsign negGx).toNat := by
  decide +kernel

/-- The only x with (x, (1, 0)) on the curve is (0, 0): x^2 times 1 + CURVE_D is zero, and 1 + CURVE_D is not. -/
theorem x_of_y_one {x : Fe2} (hx : Fe2Canonical x) (h : affineOnCurve x ⟨1, 0⟩ = true) : x = ⟨0, 0⟩ := by
  have : Fact (Nat.Prime prime) := ⟨prime_isPrime⟩
  have h := of_decide_eq_true h
  simp only [eadd, eneg, esq, emul, eone, Fe2.mk.injEq] at h
  have hre := congrArg (fun v : Fe => (v.toNat : ZMod prime)) h.1
  have him := congrArg (fun v : Fe => (v.toNat : ZMod prime)) h.2
  simp only [fadd_cast, fsub_cast, fneg_cast, fmul_cast, show (1 : Fe).toNat = 1 from rfl,
    show (0 : Fe).toNat = 0 from rfl, Nat.cast_one, Nat.cast_zero] at hre him
  have hn : (1 + (curveD.re.toNat : ZMod prime)) ^ 2 + (curveD.im.toNat : ZMod prime) ^ 2 ≠ 0 := by
    intro hz
    have : ((((1 + curveD.re.toNat) ^ 2 + curveD.im.toNat ^ 2 : Nat)) : ZMod prime) = 0 := by push_cast; exact hz
    exact absurd ((ZMod.natCast_eq_zero_iff _ _).1 this) (by decide +kernel)
  have h2 : (2 : ZMod prime) ≠ 0 := fun hz =>
    absurd ((ZMod.natCast_eq_zero_iff 2 prime).1 (by exact_mod_cast hz)) (by decide +kernel)
  generalize (curveD.re.toNat : ZMod prime) = d at *
  generalize (curveD.im.toNat : ZMod prime) = e at *
  have hA : (x.re.toNat : ZMod prime) ^ 2 - (x.im.toNat : ZMod prime) ^ 2 = 0 := by
    refine (mul_eq_zero.1 (?_ : ((1 + d) ^ 2 + e ^ 2) * _ = 0)).resolve_left hn
    linear_combination (-(1 + d)) * hre - e * him
  have hB : (x.re.toNat : ZMod prime) * (x.im.toNat : ZMod prime) = 0 := by
    refine (mul_eq_zero.1 (?_ : (2 * ((1 + d) ^ 2 + e ^ 2)) * _ = 0)).resolve_left (mul_ne_zero h2 hn)
    linear_combination e * hre - (1 + d) * him
  have hz : (x.re.toNat : ZMod prime) = 0 ∧ (x.im.toNat : ZMod prime) = 0 := by
    rcases mul_eq_zero.1 hB with h0 | h0 <;> simp [h0] at hA <;> exact ⟨by assumption, by assumption⟩
  exact congrArg₂ Fe2.mk (eq_zero_of_cast hx.1 hz.1) (eq_zero_of_cast hx.2 hz.2)

/-- Length 33; y.re = p; y.im = p with the sign bit set; y = (1, 0) with the sign bit set, for which there is no x
(46_codec.md R254 (c)); and a string that decodes. -/
theorem witness_DecodedPointsAreValidAndEncodeBack :
    (stB 33 1 33).blen ≠ 32
      ∧ ((stB 32 (2 ^ 127 - 1) 32).blen = 32 ∧ prime ≤ memValue (stB 32 (2 ^ 127 - 1) 32).buf 0 16)
      ∧ prime ≤ memValue (stB 32 (2 ^ 128 * (2 ^ 128 - 1)) 32).buf 16 16 % 2 ^ 127
      ∧ (let s := stB 32 (2 ^ 255 + 1) 32
        let y : Fe2 := ⟨1, 0⟩
        s.blen = 32 ∧ Fe2Canonical y ∧ memValue s.buf 0 16 = y.re.toNat ∧ memValue s.buf 16 16 % 2 ^ 127 = y.im.toNat
          ∧ ∀ x : Fe2, Fe2Canonical x → affineOnCurve x y = true → (xsign x).toNat ≠ memValue s.buf 16 16 / 2 ^ 127)
      ∧ (stB 32 4 32).blen = 32 ∧ (run 0x61200000 (stB 32 4 32)).result = 0 := by
  refine ⟨by decide, by decide +kernel, by decide +kernel, ⟨by decide, by decide, by decide +kernel, by decide +kernel,
    fun x hx h => ?_⟩, by decide, by decide +kernel⟩
  rw [x_of_y_one hx h]
  decide +kernel

/-- G; n at both ends of the range. -/
theorem witness_MultipleIsDoubleAndAdd :
    GoodPoint generator ∧ 2 ^ 256 - 1 < 2 ^ 256 ∧ 0 < 2 ^ 255 ∧ 2 ^ 255 - 1 < 2 ^ 255 := by decide +kernel

/-- Reset with G in P[0] and (0, 1) in E[1]. -/
def pseudoState : State := { stP generator Point.neutral with e := (stE ⟨0, 0⟩ ⟨0, 1⟩).e }

theorem witness_PseudoInstructionsDoWhatTheirNotesSay :
    pseudoState.Canonical ∧ pseudoState.p[0].Z ≠ ⟨0, 0⟩ ∧ pseudoState.e[1] ≠ ⟨0, 0⟩ ∧ (0 : EReg) ≠ 1 := by
  decide +kernel

end Sys2Proof.Tests
end

section
/-! Every value that a command computes is canonical (10_state.md R27). -/

namespace Sys2Proof.Machine

open Sys2Proof.Config (prime)

theorem fmul_toNat (a b : Fe) : (fmul a b).toNat = red (a.toNat * b.toNat) := by
  rw [fmul, BitVec.toNat_ofNat, Nat.mod_eq_of_lt (red_mul_lt a b)]

/-- The reducer's last step: the pattern p becomes 0 (41_primefield.md R120). -/
theorem red_ne_prime (z : Nat) : red z ≠ prime := by
  simp only [red]
  split
  · exact prime_pos.ne
  · assumption

theorem fmul_canonical (a b : Fe) : FeCanonical (fmul a b) := by
  have hlt := red_mul_lt a b
  have hne := red_ne_prime (a.toNat * b.toNat)
  rw [FeCanonical, fmul_toNat]
  exact lt_of_le_of_ne (Nat.le_sub_one_of_lt hlt) hne

/-- What every product has, every power has. -/
theorem powBy_of_closed {α : Type} {mul : α → α → α} {one a : α} (C : α → Prop) (hone : C one)
    (hmul : ∀ x y, C (mul x y)) (bits n : Nat) : C (powBy mul one a bits n) := by
  cases bits with
  | zero => exact hone
  | succ bits =>
    rw [powBy_succ]
    split
    · exact hmul _ _
    · exact hmul _ _

theorem finv_canonical (a : Fe) : FeCanonical (finv a) :=
  powBy_of_closed FeCanonical (by decide) fmul_canonical 127 (prime - 2)

theorem einv_canonical (u : Fe2) : Fe2Canonical (einv u) := ⟨fmul_canonical _ _, fneg_canonical _⟩

theorem emulKaratsuba_canonical (u v : Fe2) : Fe2Canonical (emulKaratsuba u v) :=
  ⟨fsub_canonical _ _, fsub_canonical _ _⟩

theorem esqrTwo_canonical (u : Fe2) : Fe2Canonical (esqrTwo u) := ⟨fmul_canonical _ _, fmul_canonical _ _⟩

theorem econj_canonical {u : Fe2} (h : Fe2Canonical u) : Fe2Canonical (econj u) := ⟨h.1, fneg_canonical _⟩

theorem ofNat_canonical {n : Nat} (h : n < prime) : FeCanonical (BitVec.ofNat 127 n) := by
  rwa [FeCanonical, toNat_ofNat_lt_prime h]

theorem ezero_canonical : Fe2Canonical ezero := by decide
theorem eone_canonical : Fe2Canonical eone := by decide
theorem neutral_canonical : PointCanonical Point.neutral := by decide

theorem ofAffine_canonical {x y : Fe2} (hx : Fe2Canonical x) (hy : Fe2Canonical y) : PointCanonical (ofAffine x y) :=
  ⟨hx, hy, eone_canonical, emul_canonical _ _⟩

theorem generator_canonical : PointCanonical generator := ofAffine_canonical (by decide) (by decide)

theorem tauDual_canonical (P : Proj) : PointCanonical (tauDual P) :=
  ⟨emul_canonical _ _, emul_canonical _ _, emul_canonical _ _, emul_canonical _ _⟩

theorem phi_canonical (P : Point) : PointCanonical (phi P) := tauDual_canonical _
theorem psi_canonical (P : Point) : PointCanonical (psi P) := tauDual_canonical _

theorem esqrt_canonical {w r : Fe2} (h : esqrt w = some r) : Fe2Canonical r := by
  rw [esqrt] at h
  split at h
  · cases h
  · split at h
    · cases h; exact emul_canonical _ _
    · cases h; exact emul_canonical _ _

theorem rootWithSign_canonical {w r : Fe2} {sign : Bool} (h : rootWithSign w sign = some r) : Fe2Canonical r := by
  rw [rootWithSign] at h
  split at h
  · split at h
    · cases h
    · cases h; exact ezero_canonical
  · obtain ⟨x, hx, rfl⟩ := Option.map_eq_some_iff.1 h
    split
    · exact esqrt_canonical hx
    · exact eneg_canonical _

theorem decompress_canonical {y : Fe2} {sign : Bool} {P : Point} (hy : Fe2Canonical y)
    (h : decompress y sign = some P) : PointCanonical P := by
  obtain ⟨x, hx, -, rfl⟩ := decompress_some h
  exact ofAffine_canonical (rootWithSign_canonical hx) hy

/-- Every entry of a table is canonical (10_state.md R27). -/
abbrev TableCanonical (tb : Vector Point 8) : Prop := ∀ u : Fin 8, PointCanonical tb[u]

/-- The first entry is the point itself, the other seven are sums. -/
theorem buildTable_canonical {P : Point} {tb : Vector Point 8} (hP : PointCanonical P) (h : buildTable P = some tb) :
    TableCanonical tb := by
  obtain ⟨-, rfl⟩ := buildTable_some.1 h
  intro u
  fin_cases u
  · exact hP
  all_goals exact padd_canonical _ _

theorem select_canonical {tb : Vector Point 8} (h : TableCanonical tb) (d : Digit) :
    PointCanonical (select tb d) := by
  rw [select]
  split
  · exact pneg_canonical (h d.index)
  · exact h d.index

/-- Every turn of the loop ends in an addition, so only the first entry has to be canonical. -/
theorem mulLoop_canonical {tb : Vector Point 8} (h : TableCanonical tb) (dg : Vector Digit 65) :
    PointCanonical (mulLoop tb dg) :=
  List.foldlRecOn _ _ (h _) fun _ _ _ _ => padd_canonical _ _

end Sys2Proof.Machine
end

section
/-! The scalars: every decomposition lies in the recoding's domain, and the signs of the two top digits
(44_scalar.md R195, R199). -/

namespace Sys2Proof.Machine

theorem alpha_bounds (l k : Nat) : 2 ^ 256 * alpha l k ≤ l * k ∧ l * k < 2 ^ 256 * alpha l k + 2 ^ 256 := by
  have h := Nat.div_add_mod (l * k) (2 ^ 256)
  have hr := Nat.mod_lt (l * k) (show 0 < 2 ^ 256 by decide)
  rw [alpha]
  omega

/-- The vector (k, 0, 0, 0) - sum alpha_j b_j + c of 44_scalar.md R195, before the choice that makes a1 odd. -/
def shiftedRest (k : Nat) : Int4 :=
  (((((⟨k, 0, 0, 0⟩ : Int4).subMul (alpha ell1 k) basis1).subMul (alpha ell2 k) basis2).subMul
    (alpha ell3 k) basis3).subMul (alpha ell4 k) basis4).add correction

theorem decomposeInt_eq (k : Nat) :
    decomposeInt k = if (shiftedRest k).x1 % 2 = 0 then (shiftedRest k).add basis4 else shiftedRest k := rfl

/-- Every lane in [0, 2^64). -/
def Int4.InBox (v : Int4) : Prop :=
  (0 ≤ v.x1 ∧ v.x1 < 2 ^ 64) ∧ (0 ≤ v.x2 ∧ v.x2 < 2 ^ 64) ∧ (0 ≤ v.x3 ∧ v.x3 < 2 ^ 64) ∧ (0 ≤ v.x4 ∧ v.x4 < 2 ^ 64)

/-- The box bound: with l_j * k = 2^256 * alpha_j + r_j and 0 <= r_j < 2^256, each lane is linear in k and the r_j, and
CVEC keeps it inside with b4 added too. -/
theorem shiftedRest_inBox {k : Nat} (hk : k < 2 ^ 256) :
    (shiftedRest k).InBox ∧ ((shiftedRest k).add basis4).InBox := by
  have h1 := alpha_bounds ell1 k
  have h2 := alpha_bounds ell2 k
  have h3 := alpha_bounds ell3 k
  have h4 := alpha_bounds ell4 k
  simp only [shiftedRest, Int4.InBox, Int4.add, Int4.subMul, basis1, basis2, basis3, basis4, correction]
  generalize alpha ell1 k = q1 at *
  generalize alpha ell2 k = q2 at *
  generalize alpha ell3 k = q3 at *
  generalize alpha ell4 k = q4 at *
  simp only [ell1, ell2, ell3, ell4] at h1 h2 h3 h4
  refine ⟨⟨?_, ?_, ?_, ?_⟩, ?_, ?_, ?_, ?_⟩ <;> omega

theorem decomposeInt_inBox {k : Nat} (hk : k < 2 ^ 256) : (decomposeInt k).InBox := by
  obtain ⟨h, h'⟩ := shiftedRest_inBox hk
  rw [decomposeInt_eq]
  split
  · exact h'
  · exact h

/-- b4's first component is odd, so adding it changes the parity. -/
theorem decomposeInt_odd (k : Nat) : (decomposeInt k).x1 % 2 = 1 := by
  rw [decomposeInt_eq]
  split
  · simp only [Int4.add, basis4]; omega
  · omega

theorem toNat_ofInt_lane {x : Int} (h : 0 ≤ x ∧ x < 2 ^ 64) : ((BitVec.ofInt 65 x).toNat : Int) = x := by
  rw [BitVec.toNat_ofInt]
  omega

theorem lane_msb_eq_false_iff (a : Lane) : a.msb = false ↔ a.toNat < 2 ^ 64 := by
  rw [BitVec.msb_eq_false_iff_two_mul_lt]
  omega

theorem ofInt_lane_msb {x : Int} (h : 0 ≤ x ∧ x < 2 ^ 64) : (BitVec.ofInt 65 x).msb = false := by
  have := toNat_ofInt_lane h
  rw [lane_msb_eq_false_iff]
  omega

theorem toQuad_recodable {v : Int4} (h : v.InBox) (hodd : v.x1 % 2 = 1) : v.toQuad.recodable = true := by
  obtain ⟨h1, h2, h3, h4⟩ := h
  have hlow : (BitVec.ofInt 65 v.x1).getLsbD 0 = true := by
    have := toNat_ofInt_lane h1
    rw [BitVec.getLsbD, Nat.testBit_zero, decide_eq_true_eq]
    omega
  simp [Quad.recodable, Quad.nonneg, Int4.toQuad, ofInt_lane_msb h1, ofInt_lane_msb h2, ofInt_lane_msb h3,
    ofInt_lane_msb h4, hlow]

/-- What DECOMP puts in Q is in the domain of the recoding (44_scalar.md R195, R199). -/
theorem decompose_recodable (k : Scalar) : (decompose k).recodable = true :=
  toQuad_recodable (decomposeInt_inBox k.isLt) (decomposeInt_odd _)

theorem recodable_a1_lt {q : Quad} (h : q.recodable = true) : q.a1.toNat < 2 ^ 64 := by
  simp only [Quad.recodable, Quad.nonneg, Bool.and_eq_true, Bool.not_eq_true'] at h
  obtain ⟨⟨⟨⟨h1, -⟩, -⟩, -⟩, -⟩ := h
  exact (lane_msb_eq_false_iff _).1 h1

theorem recodeFrom_top_neg (a1 n i r2 r3 r4 : Nat) :
    (recodeFrom a1 n i r2 r3 r4)[n]?.map Digit.neg = some false := by
  induction n generalizing i r2 r3 r4 with
  | zero => rfl
  | succ n ih => simpa only [recodeFrom, List.getElem?_cons_succ] using ih _ _ _ _

/-- Digit n of n + 2 is negated just when bit i + n + 1 of a1 is 0. -/
theorem recodeFrom_below_top_neg (a1 n i r2 r3 r4 : Nat) :
    (recodeFrom a1 (n + 1) i r2 r3 r4)[n]?.map Digit.neg = some (decide ((a1 >>> (i + n + 1)) % 2 = 0)) := by
  induction n generalizing i r2 r3 r4 with
  | zero => rfl
  | succ n ih =>
    rw [recodeFrom, List.getElem?_cons_succ, ih, show i + 1 + n + 1 = i + (n + 1) + 1 by omega]

/-- The top digit is never negated and the one below always is (44_scalar.md R199, 45_multiplier.md R225). -/
def TopSigns (dg : Vector Digit 65) : Prop := dg[64].neg = false ∧ dg[63].neg = true

theorem recodeDigits_getElem? (a1 a2 a3 a4 i : Nat) :
    (recodeDigits a1 a2 a3 a4)[i]? = (recodeFrom a1 64 0 a2 a3 a4)[i]? := by
  simp [recodeDigits]

theorem recodeDigits_topSigns {a1 : Nat} (a2 a3 a4 : Nat) (h : a1 < 2 ^ 64) : TopSigns (recodeDigits a1 a2 a3 a4) := by
  have htop := recodeFrom_top_neg a1 64 0 a2 a3 a4
  have hbelow := recodeFrom_below_top_neg a1 63 0 a2 a3 a4
  have hbit : (a1 >>> (0 + 63 + 1)) % 2 = 0 := by rw [Nat.shiftRight_eq_div_pow]; omega
  rw [← recodeDigits_getElem?] at htop hbelow
  rw [decide_eq_true hbit] at hbelow
  exact ⟨by simpa using htop, by simpa using hbelow⟩

theorem recode_topSigns {q : Quad} (h : q.recodable = true) : TopSigns (recode q) := by
  rw [recode, if_pos h]
  exact recodeDigits_topSigns _ _ _ (recodable_a1_lt h)

end Sys2Proof.Machine
end

section
/-! What a command can do, said once for all 53: it raises an error or makes one effect. The statements about every
command below rest on exec_conforms and on lemmas about effects alone. -/

namespace Sys2Proof.Machine

open Sys2Proof.Config (prime)

/-- What a command that succeeds writes. -/
inductive Effect where
  | nothing
  | field (d : FReg) (v : Fe)
  | ext (d : EReg) (v : Fe2)
  | point (d : PReg) (v : Point)
  | scalar (d : KReg) (v : Scalar)
  | quad (v : Quad)
  | digits (v : Vector Digit 65)
  | table (v : Vector Point 8)
  | product (d : PReg) (A : Point) (r : Product)
  | generatorProduct (d : PReg) (A : Point) (r : Product)
  | string (n v : Nat)
  | predicate (b : Bool)

/-- s with the writes of an effect made. -/
def State.apply (s : State) : Effect → State
  | .nothing => s
  | .field d v => s.wrF d v
  | .ext d v => s.wrE d v
  | .point d v => s.wrP d v
  | .scalar d v => s.wrK d v
  | .quad v => s.wrQ v
  | .digits v => s.wrDig v
  | .table v => s.wrT v
  | .product d A r => s.wrProduct d A r
  | .generatorProduct d A r => (s.wrProduct d A r).setGtv
  | .string n v => s.putString n v
  | .predicate b => s.setFlag b

/-- The files an effect writes, numbered as writesOf numbers them. -/
def Effect.files : Effect → List Nat
  | .nothing => []
  | .field .. => [0]
  | .ext .. => [1]
  | .point .. => [2]
  | .scalar .. => [3]
  | .quad _ => [4]
  | .digits _ => [5]
  | .table _ => [6]
  | .product .. | .generatorProduct .. => [2, 4, 5, 6]
  | .string .. => [7]
  | .predicate _ => [8]

/-- Whether an effect sets GTV. -/
def Effect.setsGtv : Effect → Bool
  | .generatorProduct .. => true
  | _ => false

/-- Whether a command is DSMULG, the one that sets GTV (10_state.md R43). -/
def isDsmulg : Instr → Bool
  | .dsmulg .. => true
  | _ => false

/-- An effect that the tables allow the command i. -/
abbrev Effect.Fits (w : Effect) (i : Instr) : Prop := w.files = writesOf i ∧ w.setsGtv = isDsmulg i

/-- The side values of a multiplication, as the invariant wants them. -/
structure Product.Legal (r : Product) : Prop where
  q : r.q.recodable = true
  dig : TopSigns r.dig
  t : TableCanonical r.t

/-- The values an effect writes are such as the invariant allows. -/
def Effect.Legal : Effect → Prop
  | .nothing | .scalar .. | .predicate _ => True
  | .field _ v => FeCanonical v
  | .ext _ v => Fe2Canonical v
  | .point _ v => PointCanonical v
  | .quad v => v.recodable = true
  | .digits v => TopSigns v
  | .table v => TableCanonical v
  | .product _ A r | .generatorProduct _ A r => PointCanonical A ∧ r.Legal
  | .string n _ => n ≤ Config.bufSize

/-- s with FLAG and GTV replaced, the two bits that no command reads (10_state.md R33, R43). -/
def State.withBits (s : State) (fl g : Bool) : State := { s with flag := fl, gtv := g }

theorem smulval_legal {k : Scalar} {P : Point} {r : Product} (hP : PointCanonical P) (h : smulval k P = some r) :
    PointCanonical r.A ∧ r.Legal := by
  obtain ⟨htb, hq, hdig, hA⟩ := smulval_some h
  have ht : TableCanonical r.t := buildTable_canonical hP htb
  refine ⟨hA ▸ mulLoop_canonical ht r.dig, ⟨?_, ?_, ht⟩⟩
  · exact hq ▸ decompose_recodable k
  · exact hdig ▸ recode_topSigns (decompose_recodable k)

/-! What the invariant says of one register. -/

theorem State.Inv.rdF {s : State} (h : s.Inv) (r : FReg) : FeCanonical (s.rdF r) := h.canonical.1 r
theorem State.Inv.rdE {s : State} (h : s.Inv) (r : EReg) : Fe2Canonical (s.rdE r) := h.canonical.2.1 r
theorem State.Inv.rdP {s : State} (h : s.Inv) (r : PReg) : PointCanonical (s.rdP r) := h.canonical.2.2.1 r
theorem State.Inv.table {s : State} (h : s.Inv) : TableCanonical s.t := h.canonical.2.2.2

/-! Every command, by its outcome. -/

/-- All that a command can do: it raises an error, or it makes an effect its table allows; which of the two, and the
error or the effect, hang neither on FLAG nor on GTV. -/
inductive Conforms (i : Instr) (s : State) : Prop
  | raises (c : ErrorCode) (h : ∀ fl g, exec i (s.withBits fl g) = fail i c (s.withBits fl g))
  | writes (w : Effect) (fits : w.Fits i) (legal : s.Inv → w.Legal)
      (h : ∀ fl g, exec i (s.withBits fl g) = succeed ((s.withBits fl g).apply w))

namespace Conforms

variable {i : Instr} {s : State}

/-- A command without a check, whose value is legal whatever its sources hold. -/
theorem always (w : Effect) (fits : w.Fits i) (legal : w.Legal)
    (h : ∀ fl g, exec i (s.withBits fl g) = succeed ((s.withBits fl g).apply w)) : Conforms i s :=
  .writes w fits (fun _ => legal) h

/-- A command with one check. -/
theorem ofIte (B : Prop) [Decidable B] (c : ErrorCode) (w : Effect) (fits : w.Fits i) (legal : s.Inv → ¬B → w.Legal)
    (h : ∀ fl g, exec i (s.withBits fl g)
      = if B then fail i c (s.withBits fl g) else succeed ((s.withBits fl g).apply w)) : Conforms i s := by
  by_cases hB : B
  · exact .raises c fun fl g => (h fl g).trans (if_pos hB)
  · exact .writes w fits (fun hs => legal hs hB) fun fl g => (h fl g).trans (if_neg hB)

/-- A command that hangs on a computation that may have no result. -/
theorem ofOption {α : Type} (o : Option α) (c : ErrorCode) (w : α → Effect) (fits : ∀ v, (w v).Fits i)
    (legal : s.Inv → ∀ v, o = some v → (w v).Legal)
    (h : ∀ fl g, exec i (s.withBits fl g)
      = o.elim (fail i c (s.withBits fl g)) fun v => succeed ((s.withBits fl g).apply (w v))) : Conforms i s := by
  cases o with
  | none => exact .raises c h
  | some v => exact .writes (w v) (fits v) (fun hs => legal hs v rfl) h

end Conforms

theorem conforms_ffromb (d : FReg) (s : State) : Conforms (.ffromb d) s := by
  by_cases hl : s.lengthIs 16 = false
  · exact .raises .invalidEncodingLength fun _ _ => if_pos hl
  by_cases hp : prime ≤ s.getString 0 16
  · exact .raises .invalidFieldEncoding fun _ _ => (if_neg hl).trans (if_pos hp)
  · exact .always (.field d (BitVec.ofNat 127 (s.getString 0 16))) ⟨rfl, rfl⟩ (ofNat_canonical (Nat.lt_of_not_le hp))
      fun _ _ => (if_neg hl).trans (if_neg hp)

theorem conforms_efromb (d : EReg) (s : State) : Conforms (.efromb d) s := by
  by_cases hl : s.lengthIs 32 = false
  · exact .raises .invalidEncodingLength fun _ _ => if_pos hl
  by_cases hp : prime ≤ s.getString 0 16 ∨ prime ≤ s.getString 16 16
  · exact .raises .invalidFieldEncoding fun _ _ => (if_neg hl).trans (if_pos hp)
  · obtain ⟨hre, him⟩ := not_or.1 hp
    exact .always (.ext d ⟨BitVec.ofNat 127 (s.getString 0 16), BitVec.ofNat 127 (s.getString 16 16)⟩) ⟨rfl, rfl⟩
      ⟨ofNat_canonical (Nat.lt_of_not_le hre), ofNat_canonical (Nat.lt_of_not_le him)⟩
      fun _ _ => (if_neg hl).trans (if_neg hp)

theorem conforms_pdec (d : PReg) (s : State) : Conforms (.pdec d) s := by
  by_cases hl : s.lengthIs 32 = false
  · exact .raises .invalidEncodingLength fun _ _ => if_pos hl
  by_cases hp : prime ≤ s.getString 0 16 ∨ prime ≤ s.getString 16 16 % 2 ^ 127
  · exact .raises .invalidFieldEncoding fun _ _ => (if_neg hl).trans (if_pos hp)
  · obtain ⟨hre, him⟩ := not_or.1 hp
    exact .ofOption
      (decompress ⟨BitVec.ofNat 127 (s.getString 0 16), BitVec.ofNat 127 (s.getString 16 16 % 2 ^ 127)⟩
        (Memory.read s.buf 31).msb) .pointNotOnCurve (.point d) (fun _ => ⟨rfl, rfl⟩)
      (fun _ _ => decompress_canonical
        ⟨ofNat_canonical (Nat.lt_of_not_le hre), ofNat_canonical (Nat.lt_of_not_le him)⟩)
      fun _ _ => (if_neg hl).trans (if_neg hp)

theorem conforms_trd (d : PReg) (u : BitVec 8) (s : State) : Conforms (.trd d u) s := by
  by_cases hu : u.toNat < 8
  · exact .ofIte (s.tv = false) .notReady (.point d (s.rdT ⟨u.toNat, hu⟩)) ⟨rfl, rfl⟩ (fun hs _ => hs.table _)
      fun _ _ => dif_pos hu
  · exact .raises .illegalCommand fun _ _ => dif_neg hu

theorem conforms_tsel (d : PReg) (n : BitVec 8) (s : State) : Conforms (.tsel d n) s := by
  by_cases hn : n.toNat < 65
  · exact .ofIte (s.tv = false ∨ s.dv = false) .notReady (.point d (select s.t s.dig[n.toNat])) ⟨rfl, rfl⟩
      (fun hs _ => select_canonical hs.table _) fun _ _ => dif_pos hn
  · exact .raises .illegalCommand fun _ _ => dif_neg hn

theorem conforms_dsmul (d : PReg) (a : KReg) (b : PReg) (c : KReg) (e : PReg) (s : State) :
    Conforms (.dsmul d a b c e) s := by
  cases h1 : smulval (s.rdK a) (s.rdP b) with
  | none => exact .raises .exceptionalPoint fun _ _ => execDsmul_none (.inl h1)
  | some r1 =>
    refine .ofOption (smulval (s.rdK c) (s.rdP e)) .exceptionalPoint (fun r2 => .product d (padd r1.A r2.A) r2)
      (fun _ => ⟨rfl, rfl⟩) (fun hs r2 h2 => ⟨padd_canonical _ _, (smulval_legal (hs.rdP e) h2).2⟩) fun fl g => ?_
    have h1' : smulval ((s.withBits fl g).rdK a) ((s.withBits fl g).rdP b) = some r1 := h1
    rw [exec, execDsmul, h1', Option.elim_some]
    rfl

/-- Every command is of that shape: the one case split over the commands. -/
theorem exec_conforms (i : Instr) (s : State) : Conforms i s := by
  cases i with
  | nop => exact .always .nothing ⟨rfl, rfl⟩ trivial fun _ _ => rfl
  | fadd d a b => exact .always (.field d _) ⟨rfl, rfl⟩ (fadd_canonical (s.rdF a) (s.rdF b)) fun _ _ => rfl
  | fsub d a b => exact .always (.field d _) ⟨rfl, rfl⟩ (fsub_canonical (s.rdF a) (s.rdF b)) fun _ _ => rfl
  | fmul d a b => exact .always (.field d _) ⟨rfl, rfl⟩ (fmul_canonical (s.rdF a) (s.rdF b)) fun _ _ => rfl
  | fsqr d a => exact .always (.field d _) ⟨rfl, rfl⟩ (fmul_canonical (s.rdF a) (s.rdF a)) fun _ _ => rfl
  | fneg d a => exact .always (.field d _) ⟨rfl, rfl⟩ (fneg_canonical (s.rdF a)) fun _ _ => rfl
  | finv d a =>
    exact .ofIte (s.rdF a = 0) .zeroInversion (.field d _) ⟨rfl, rfl⟩ (fun _ _ => finv_canonical (s.rdF a))
      fun _ _ => rfl
  | fisz a => exact .always (.predicate (decide (s.rdF a = 0))) ⟨rfl, rfl⟩ trivial fun _ _ => rfl
  | feq a b => exact .always (.predicate (decide (s.rdF a = s.rdF b))) ⟨rfl, rfl⟩ trivial fun _ _ => rfl
  | ftob a => exact .always (.string 16 (feBytes (s.rdF a))) ⟨rfl, rfl⟩ (by decide : 16 ≤ _) fun _ _ => rfl
  | ffromb d => exact conforms_ffromb d s
  | eadd d a b => exact .always (.ext d _) ⟨rfl, rfl⟩ (eadd_canonical (s.rdE a) (s.rdE b)) fun _ _ => rfl
  | esub d a b => exact .always (.ext d _) ⟨rfl, rfl⟩ (esub_canonical (s.rdE a) (s.rdE b)) fun _ _ => rfl
  | emul d a b => exact .always (.ext d _) ⟨rfl, rfl⟩ (emulKaratsuba_canonical (s.rdE a) (s.rdE b)) fun _ _ => rfl
  | esqr d a => exact .always (.ext d _) ⟨rfl, rfl⟩ (esqrTwo_canonical (s.rdE a)) fun _ _ => rfl
  | eneg d a => exact .always (.ext d _) ⟨rfl, rfl⟩ (eneg_canonical (s.rdE a)) fun _ _ => rfl
  | einv d a =>
    exact .ofIte (s.rdE a = ezero) .zeroInversion (.ext d _) ⟨rfl, rfl⟩ (fun _ _ => einv_canonical (s.rdE a))
      fun _ _ => rfl
  | eisz a => exact .always (.predicate (decide (s.rdE a = ezero))) ⟨rfl, rfl⟩ trivial fun _ _ => rfl
  | eeq a b => exact .always (.predicate (decide (s.rdE a = s.rdE b))) ⟨rfl, rfl⟩ trivial fun _ _ => rfl
  | etob a => exact .always (.string 32 (fe2Bytes (s.rdE a))) ⟨rfl, rfl⟩ (by decide : 32 ≤ _) fun _ _ => rfl
  | efromb d => exact conforms_efromb d s
  | econj d a => exact .writes (.ext d _) ⟨rfl, rfl⟩ (fun hs => econj_canonical (hs.rdE a)) fun _ _ => rfl
  | epack d a b => exact .writes (.ext d ⟨_, _⟩) ⟨rfl, rfl⟩ (fun hs => ⟨hs.rdF a, hs.rdF b⟩) fun _ _ => rfl
  | ere d a => exact .writes (.field d _) ⟨rfl, rfl⟩ (fun hs => (hs.rdE a).1) fun _ _ => rfl
  | eim d a => exact .writes (.field d _) ⟨rfl, rfl⟩ (fun hs => (hs.rdE a).2) fun _ _ => rfl
  | pid d => exact .always (.point d _) ⟨rfl, rfl⟩ neutral_canonical fun _ _ => rfl
  | padd d a b => exact .always (.point d _) ⟨rfl, rfl⟩ (padd_canonical (s.rdP a) (s.rdP b)) fun _ _ => rfl
  | pdbl d a => exact .always (.point d _) ⟨rfl, rfl⟩ (pdbl_canonical (s.rdP a)) fun _ _ => rfl
  | pneg d a => exact .writes (.point d _) ⟨rfl, rfl⟩ (fun hs => pneg_canonical (hs.rdP a)) fun _ _ => rfl
  | ponc a => exact .always (.predicate (pvalid (s.rdP a))) ⟨rfl, rfl⟩ trivial fun _ _ => rfl
  | paffx d a =>
    exact .ofIte ((s.rdP a).Z = ezero) .zeroInversion (.ext d (affineX (s.rdP a))) ⟨rfl, rfl⟩
      (fun _ _ => emul_canonical _ _) fun _ _ => rfl
  | paffy d a =>
    exact .ofIte ((s.rdP a).Z = ezero) .zeroInversion (.ext d (affineY (s.rdP a))) ⟨rfl, rfl⟩
      (fun _ _ => emul_canonical _ _) fun _ _ => rfl
  | peq a b => exact .always (.predicate (sameAffine (s.rdP a) (s.rdP b))) ⟨rfl, rfl⟩ trivial fun _ _ => rfl
  | pseta d a b =>
    exact .ofIte (affineOnCurve (s.rdE a) (s.rdE b) = false) .pointNotOnCurve (.point d _) ⟨rfl, rfl⟩
      (fun hs _ => ofAffine_canonical (hs.rdE a) (hs.rdE b)) fun _ _ => rfl
  | eonc a b => exact .always (.predicate (affineOnCurve (s.rdE a) (s.rdE b))) ⟨rfl, rfl⟩ trivial fun _ _ => rfl
  | pphi d a =>
    exact .ofOption (phiChecked (s.rdP a)) .exceptionalPoint (.point d) (fun _ => ⟨rfl, rfl⟩)
      (fun _ _ h => (phiChecked_some.1 h).2 ▸ phi_canonical _) fun _ _ => rfl
  | ppsi d a =>
    exact .ofOption (psiChecked (s.rdP a)) .exceptionalPoint (.point d) (fun _ => ⟨rfl, rfl⟩)
      (fun _ _ h => (psiChecked_some.1 h).2 ▸ psi_canonical _) fun _ _ => rfl
  | pgen d => exact .always (.point d _) ⟨rfl, rfl⟩ generator_canonical fun _ _ => rfl
  | kfromb d =>
    exact .ofIte (s.lengthIs 32 = false) .invalidEncodingLength
      (.scalar d (BitVec.ofNat 256 (s.getString 0 32))) ⟨rfl, rfl⟩ (fun _ _ => trivial) fun _ _ => rfl
  | ktob a => exact .always (.string 32 (s.rdK a).toNat) ⟨rfl, rfl⟩ (by decide : 32 ≤ _) fun _ _ => rfl
  | kred d =>
    exact .ofIte (s.lengthIs 32 = false ∧ s.lengthIs 64 = false) .invalidEncodingLength
      (.scalar d (BitVec.ofNat 256 (s.getString 0 s.blen.toNat % orderN))) ⟨rfl, rfl⟩ (fun _ _ => trivial)
      fun _ _ => rfl
  | decomp a => exact .always (.quad _) ⟨rfl, rfl⟩ (decompose_recodable (s.rdK a)) fun _ _ => rfl
  | qtob =>
    exact .ofIte (s.qv = false) .notReady (.string 64 (quadBytes s.q)) ⟨rfl, rfl⟩ (fun _ _ => (by decide : 64 ≤ _))
      fun _ _ => rfl
  | recode =>
    exact .ofIte (s.qv = false) .notReady (.digits _) ⟨rfl, rfl⟩
      (fun hs h => recode_topSigns (hs.quad (Bool.eq_true_of_not_eq_false h))) fun _ _ => rfl
  | dtob =>
    exact .ofIte (s.dv = false) .notReady (.string 65 (digitsBytes s.dig.toList)) ⟨rfl, rfl⟩
      (fun _ _ => (by decide : 65 ≤ _)) fun _ _ => rfl
  | tbuild a =>
    exact .ofOption (buildTable (s.rdP a)) .exceptionalPoint .table (fun _ => ⟨rfl, rfl⟩)
      (fun hs _ => buildTable_canonical (hs.rdP a)) fun _ _ => rfl
  | trd d u => exact conforms_trd d u s
  | tsel d n => exact conforms_tsel d n s
  | smul d a b =>
    exact .ofOption (smulval (s.rdK a) (s.rdP b)) .exceptionalPoint (fun r => .product d r.A r) (fun _ => ⟨rfl, rfl⟩)
      (fun hs _ => smulval_legal (hs.rdP b)) fun _ _ => rfl
  | dsmul d a b c e => exact conforms_dsmul d a b c e s
  | dsmulg d a b c =>
    exact .ofOption (smulval (s.rdK b) (s.rdP c)) .exceptionalPoint
      (fun r => .generatorProduct d (padd (generatorMultiple (s.rdK a)) r.A) r) (fun _ => ⟨rfl, rfl⟩)
      (fun hs _ h => ⟨padd_canonical _ _, (smulval_legal (hs.rdP c) h).2⟩) fun _ _ => rfl
  | penc a =>
    exact .ofIte ((s.rdP a).Z = ezero) .zeroInversion
      (.string 32 (encodedPoint (affineX (s.rdP a)) (affineY (s.rdP a)))) ⟨rfl, rfl⟩ (fun _ _ => (by decide : 32 ≤ _))
      fun _ _ => rfl
  | pdec d => exact conforms_pdec d s

/-- Everything a command that has an outcome can do. -/
theorem exec_cases {i : Instr} {s t : State} (h : exec i s = .next t) :
    (∃ c, t = s.raise c (encode i)) ∨ ∃ w : Effect, w.Fits i ∧ (s.Inv → w.Legal) ∧ t = (s.apply w).complete := by
  obtain ⟨c, hc⟩ | ⟨w, fits, legal, hw⟩ := exec_conforms i s
  · exact .inl ⟨c, fail_next.1 ((hc s.flag s.gtv).symm.trans h)⟩
  · exact .inr ⟨w, fits, legal, succeed_next.1 ((hw s.flag s.gtv).symm.trans h)⟩

end Sys2Proof.Machine
end

section
/-! The frame of every command (10_state.md R23 to R33). -/

namespace Sys2Proof.Machine

/-- u agrees with s on every file that l does not list, the files numbered as writesOf numbers them. -/
structure SameOutside (l : List Nat) (s u : State) : Prop where
  f : 0 ∉ l → u.f = s.f
  e : 1 ∉ l → u.e = s.e
  p : 2 ∉ l → u.p = s.p
  k : 3 ∉ l → u.k = s.k
  q : 4 ∉ l → u.q = s.q
  dig : 5 ∉ l → u.dig = s.dig
  table : 6 ∉ l → u.t = s.t
  memory : 7 ∉ l → u.blen = s.blen ∧ u.buf = s.buf
  flag : 8 ∉ l → u.flag = s.flag

/-- Each effect by the field lemmas of its update (Laws/State). -/
theorem State.apply_sameOutside (s : State) (w : Effect) : SameOutside w.files s (s.apply w) := by
  cases w <;> constructor <;> simp [Effect.files, State.apply]

theorem State.complete_sameOutside {l : List Nat} {s t : State} (h : SameOutside l s t) : SameOutside l s t.complete :=
  ⟨h.f, h.e, h.p, h.k, h.q, h.dig, h.table, h.memory, h.flag⟩

theorem State.raise_sameOutside (l : List Nat) (s : State) (c : ErrorCode) (w : Word) :
    SameOutside l s (s.raise c w) := by
  constructor <;> intro _ <;> simp

/-- A command changes the files of its table row alone; an error changes none. -/
theorem exec_sameOutside {i : Instr} {s t : State} (h : exec i s = .next t) : SameOutside (writesOf i) s t := by
  obtain ⟨c, rfl⟩ | ⟨w, ⟨hfiles, -⟩, -, rfl⟩ := exec_cases h
  · exact State.raise_sameOutside _ s c _
  · exact State.complete_sameOutside (hfiles ▸ State.apply_sameOutside s w)

/-- Settles O18, by the effect that each command's table row allows. -/
theorem commandsWriteOnlyTheirFiles : Obligations.CommandsWriteOnlyTheirFiles := by
  intro i s t h
  have hs := exec_sameOutside h
  exact ⟨hs.f, hs.e, hs.p, hs.k, hs.q, hs.dig, hs.table,
    fun h7 => ⟨(hs.memory h7).1, fun a => by rw [(hs.memory h7).2]⟩, hs.flag⟩

end Sys2Proof.Machine
end

section
/-! The valid bits, GTV and OVR (10_state.md R36, R43). -/

namespace Sys2Proof.Machine

theorem State.apply_qv (s : State) (w : Effect) : (s.apply w).qv = (s.qv || decide (4 ∈ w.files)) := by
  cases w <;> simp [State.apply, Effect.files]

theorem State.apply_dv (s : State) (w : Effect) : (s.apply w).dv = (s.dv || decide (5 ∈ w.files)) := by
  cases w <;> simp [State.apply, Effect.files]

theorem State.apply_tv (s : State) (w : Effect) : (s.apply w).tv = (s.tv || decide (6 ∈ w.files)) := by
  cases w <;> simp [State.apply, Effect.files]

theorem State.apply_gtv (s : State) (w : Effect) : (s.apply w).gtv = (s.gtv || w.setsGtv) := by
  cases w <;> simp [State.apply, Effect.setsGtv]

theorem State.apply_ovr (s : State) (w : Effect) : (s.apply w).ovr = s.ovr := by
  cases w <;> simp [State.apply]

theorem State.apply_halt (s : State) (w : Effect) : (s.apply w).halt = s.halt := by
  cases w <;> simp [State.apply]

theorem isDsmulg_iff (i : Instr) : isDsmulg i = true ↔ ∃ d a b c, i = .dsmulg d a b c := by
  cases i <;> simp [isDsmulg]

/-- GTV is an old one, or DSMULG's. -/
theorem State.apply_gtv_cases {w : Effect} {i : Instr} (s : State) (fits : w.Fits i) :
    (s.apply w).gtv = s.gtv ∨ ∃ d a b c, i = .dsmulg d a b c := by
  rw [State.apply_gtv, fits.2]
  cases hi : isDsmulg i with
  | false => exact .inl (Bool.or_false _)
  | true => exact .inr ((isDsmulg_iff i).1 hi)

/-- Settles O19: a valid bit after an effect is the bit before or the effect's, so none falls and each rises with its
file alone. -/
theorem validBitsAreSetByTheirCommandsOnly : Obligations.ValidBitsAreSetByTheirCommandsOnly := by
  intro i s t h
  obtain ⟨c, rfl⟩ | ⟨w, fits, -, rfl⟩ := exec_cases h
  · simp
  · have hq := s.apply_qv w
    have hd := s.apply_dv w
    have ht := s.apply_tv w
    rw [fits.1] at hq hd ht
    refine ⟨?_, ?_, ?_, ?_, s.apply_ovr w, ?_, ?_, ?_,
      (s.apply_gtv_cases fits).imp_right fun ⟨d, a, b, c, hi⟩ => ⟨d, a, b, c, hi, rfl⟩⟩ <;>
      simp +contextual [hq, hd, ht, s.apply_gtv w]

end Sys2Proof.Machine
end

section
/-! No command reads FLAG or GTV (10_state.md R33, R43). -/

namespace Sys2Proof.Machine

theorem State.withBits_flag_apply (s : State) (w : Effect) (b : Bool) :
    (s.withBits b s.gtv).apply w = s.apply w ∨ (s.withBits b s.gtv).apply w = { s.apply w with flag := b } := by
  cases w with
  | predicate _ => exact .inl rfl
  | _ => exact .inr rfl

theorem State.withBits_gtv_apply (s : State) (w : Effect) (b : Bool) :
    (s.withBits s.flag b).apply w = s.apply w ∨ (s.withBits s.flag b).apply w = { s.apply w with gtv := b } := by
  cases w with
  | generatorProduct _ _ _ => exact .inl rfl
  | _ => exact .inr rfl

/-- Settles O20: with a bit replaced a command raises the same error or makes the same effect (exec_conforms), and an
effect overwrites the bit or leaves it. -/
theorem flagAndGtvAreNeverRead : Obligations.FlagAndGtvAreNeverRead := by
  intro i s t b h
  obtain ⟨c, hc⟩ | ⟨w, -, -, hw⟩ := exec_conforms i s
  · obtain rfl := fail_next.1 ((hc s.flag s.gtv).symm.trans h)
    exact ⟨.inr (hc b s.gtv), .inr (hc s.flag b)⟩
  · obtain rfl := succeed_next.1 ((hw s.flag s.gtv).symm.trans h)
    refine ⟨(s.withBits_flag_apply w b).imp (fun e => ?_) fun e => ?_,
      (s.withBits_gtv_apply w b).imp (fun e => ?_) fun e => ?_⟩
    · exact (hw b s.gtv).trans (congrArg succeed e)
    · exact (hw b s.gtv).trans (congrArg succeed e)
    · exact (hw s.flag b).trans (congrArg succeed e)
    · exact (hw s.flag b).trans (congrArg succeed e)

end Sys2Proof.Machine
end

section
/-! The state after reset (10_state.md R44), and that every step keeps the invariant: one rule for each operation on
the state, then the steps. -/

namespace Sys2Proof.Machine

/-- Settles O7, field by field. -/
theorem resetGivesTheTabledValues : Obligations.ResetGivesTheTabledValues := by
  refine ⟨?_, ?_, ?_, ?_, rfl, ?_, ?_, fun _ => rfl, rfl, rfl, rfl, rfl, rfl, rfl, rfl, rfl, rfl, rfl, rfl⟩ <;>
    simp [State.reset, Point.neutral]

theorem forall_getElem_replicate {α : Type} {n : Nat} {C : α → Prop} {x : α} (hx : C x) (r : Fin n) :
    C (Vector.replicate n x)[r] := by
  rwa [Fin.getElem_fin, Vector.getElem_replicate]

theorem reset_inv : State.reset.Inv where
  canonical :=
    ⟨forall_getElem_replicate prime_pos, forall_getElem_replicate ezero_canonical,
      forall_getElem_replicate neutral_canonical, forall_getElem_replicate neutral_canonical⟩
  memory := Memory.wf_reset
  resultCode := by decide
  halted := nofun
  quad := nofun
  digits := nofun
  generatorTable := nofun

/-- Settles O22, by reset_inv. -/
theorem resetMeetsTheInvariant : Obligations.ResetMeetsTheInvariant := reset_inv

theorem forall_getElem_set {α : Type} {n : Nat} {C : α → Prop} {v : Vector α n} {x : α} (d : Fin n)
    (h : ∀ r : Fin n, C v[r]) (hx : C x) (r : Fin n) : C (v.set d x)[r] := by
  rw [Fin.getElem_fin, Vector.getElem_set]
  split
  · exact hx
  · exact h r

namespace State.Inv

variable {s : State}

theorem wrF (h : s.Inv) (d : FReg) {v : Fe} (hv : FeCanonical v) : (s.wrF d v).Inv :=
  { h with canonical := ⟨forall_getElem_set d h.rdF hv, h.rdE, h.rdP, h.table⟩ }

theorem wrE (h : s.Inv) (d : EReg) {v : Fe2} (hv : Fe2Canonical v) : (s.wrE d v).Inv :=
  { h with canonical := ⟨h.rdF, forall_getElem_set d h.rdE hv, h.rdP, h.table⟩ }

theorem wrP (h : s.Inv) (d : PReg) {v : Point} (hv : PointCanonical v) : (s.wrP d v).Inv :=
  { h with canonical := ⟨h.rdF, h.rdE, forall_getElem_set d h.rdP hv, h.table⟩ }

theorem wrK (h : s.Inv) (d : KReg) (v : Scalar) : (s.wrK d v).Inv := { h with }

theorem wrQ (h : s.Inv) {v : Quad} (hv : v.recodable = true) : (s.wrQ v).Inv :=
  { h with
    quad := fun _ => hv
    generatorTable := fun hg => ⟨rfl, (h.generatorTable hg).2⟩ }

theorem wrDig (h : s.Inv) {v : Vector Digit 65} (hv : TopSigns v) : (s.wrDig v).Inv :=
  { h with
    digits := fun _ => hv
    generatorTable := fun hg => ⟨(h.generatorTable hg).1, rfl, (h.generatorTable hg).2.2⟩ }

theorem wrT (h : s.Inv) {v : Vector Point 8} (hv : TableCanonical v) : (s.wrT v).Inv :=
  { h with
    canonical := ⟨h.rdF, h.rdE, h.rdP, hv⟩
    generatorTable := fun hg => ⟨(h.generatorTable hg).1, (h.generatorTable hg).2.1, rfl⟩ }

theorem wrProduct (h : s.Inv) (d : PReg) {A : Point} {r : Product} (hA : PointCanonical A) (hr : r.Legal) :
    (s.wrProduct d A r).Inv :=
  (((h.wrP d hA).wrQ hr.q).wrDig hr.dig).wrT hr.t

/-- GTV may be set once the other valid bits are. -/
theorem setGtv (h : s.Inv) (hv : s.qv = true ∧ s.dv = true ∧ s.tv = true) : s.setGtv.Inv :=
  { h with generatorTable := fun _ => hv }

theorem putString (h : s.Inv) {n : Nat} (hn : n ≤ Config.bufSize) (v : Nat) : (s.putString n v).Inv :=
  { h with memory := s.putString_wf n v hn h.memory }

theorem setFlag (h : s.Inv) (b : Bool) : (s.setFlag b).Inv := { h with }

theorem apply (h : s.Inv) {w : Effect} (hw : w.Legal) : (s.apply w).Inv :=
  match w, hw with
  | .nothing, _ => h
  | .field d _, hv => h.wrF d hv
  | .ext d _, hv => h.wrE d hv
  | .point d _, hv => h.wrP d hv
  | .scalar d v, _ => h.wrK d v
  | .quad _, hv => h.wrQ hv
  | .digits _, hv => h.wrDig hv
  | .table _, hv => h.wrT hv
  | .product d _ _, ⟨hA, hr⟩ => h.wrProduct d hA hr
  | .generatorProduct d _ _, ⟨hA, hr⟩ => (h.wrProduct d hA hr).setGtv ⟨rfl, rfl, rfl⟩
  | .string _ v, hn => h.putString hn v
  | .predicate b, _ => h.setFlag b

theorem complete (h : s.Inv) (hh : s.halt = false) : s.complete.Inv :=
  { h with
    resultCode := by simp
    halted := fun hh' => absurd (hh.symm.trans hh') nofun }

theorem raise (h : s.Inv) (hh : s.halt = false) (c : ErrorCode) (w : Word) : (s.raise c w).Inv :=
  { h with
    resultCode := c.code_le_seven
    halted := fun hc => by
      have hfatal : c = .zeroInversion := by simpa [hh] using hc
      subst hfatal
      exact ⟨rfl, rfl⟩ }

/-- A command that executes does so with HALT = 0 (60_exceptions.md R286). -/
theorem halt_eq_false (h : s.Inv) {w : Word} (hw : s.running = some w) : s.halt = false := by
  cases hh : s.halt with
  | false => rfl
  | true => exact absurd ((h.halted hh).1.symm.trans hw) nofun

theorem exec_next {i : Instr} {t : State} (h : s.Inv) (hh : s.halt = false) (he : exec i s = .next t) : t.Inv := by
  obtain ⟨c, rfl⟩ | ⟨w, -, legal, rfl⟩ := exec_cases he
  · exact h.raise hh c _
  · exact (h.apply (legal h)).complete ((s.apply_halt w).trans hh)

theorem runCommand_next {w : Word} {t : State} (h : s.Inv) (hh : s.halt = false) (he : runCommand w s = .next t) :
    t.Inv := by
  obtain ⟨i, -, hi⟩ | ⟨e, -, rfl⟩ := runCommand_cases he
  · exact h.exec_next hh hi
  · exact h.raise hh .illegalCommand w

theorem doReset_inv (s : State) : s.doReset.Inv := { reset_inv with }

theorem hostRead_inv (h : s.Inv) (addr : Nat) : (hostRead s addr).Inv := by
  obtain ⟨v, n, e⟩ := hostRead_frame s addr
  rw [e]
  exact { h with }

theorem hostWrite_inv (h : s.Inv) {addr : Nat} (w : Word) (hlt : addr < 0x100) (h4 : addr % 4 = 0) :
    (hostWrite s addr w).Inv := by
  obtain e | ⟨-, e⟩ | ⟨-, -, hh, e⟩ | ⟨-, -, e⟩ | ⟨-, e⟩ | ⟨-, e⟩ | ⟨-, -, e⟩ := hostWrite_cases s addr w <;> rw [e]
  · exact h
  · exact { h with }
  · exact { h with halted := fun hh' => absurd (hh.symm.trans hh') nofun }
  · exact { h with }
  · exact doReset_inv s
  · exact { h with }
  · have hin : addr - 0x80 + 4 ≤ Config.bufSize := by rw [Config.bufSize]; omega
    exact { h with memory := Memory.wf_writeLE s.buf (addr - 0x80) 4 w.toNat hin h.memory }

theorem hostAccess_next {x : HostAccess} {t : State} (h : s.Inv) (he : hostAccess x s = .next t) : t.Inv := by
  obtain ⟨addr, -, -, -, rfl⟩ | ⟨addr, w, -, hlt, h4, rfl⟩ | ⟨-, rfl⟩ := hostAccess_cases he
  · exact h.hostRead_inv addr
  · exact h.hostWrite_inv w hlt h4
  · exact doReset_inv s

/-- The invariant does not speak of the accesses to come. -/
theorem withInbox (h : s.Inv) (rest : List HostEvent) : ({ s with inbox := rest } : State).Inv := { h with }

end State.Inv

/-- Settles O21: an access of the host, a command, or nothing (step_cases), each of which keeps the invariant. -/
theorem everyStepKeepsTheInvariant : Obligations.EveryStepKeepsTheInvariant := by
  intro s t h hs
  obtain ⟨x, o, rest, -, hx⟩ | ⟨w, hw, hr⟩ | ⟨-, -, rfl⟩ := step_cases hs
  · exact (h.withInbox rest).hostAccess_next hx
  · exact h.runCommand_next (h.halt_eq_false hw) hr
  · exact h

end Sys2Proof.Machine
end

section
/-! An access of the host while the core is idle, and the BUF window (20_memory.md R68). -/

namespace Sys2Proof.Machine

/-! Words in memory. -/

/-- MemRead after MemWrite of the same bytes: the value written, cut to n bytes. -/
theorem Memory.readLE_writeLE (m : Memory) (a n v : Nat) :
    Memory.readLE (Memory.writeLE m a n v) a n = v % 256 ^ n := by
  induction n generalizing m a v with
  | zero => simp [Memory.readLE, Nat.mod_one]
  | succ n ih =>
    have hlow : (Memory.read (Memory.writeLE m a (n + 1) v) a).toNat = v % 256 := by
      simpa using congrArg BitVec.toNat (Memory.read_writeLE_inside m a (n + 1) v 0 n.succ_pos)
    rw [Memory.readLE, hlow, Memory.writeLE, ih, Nat.pow_succ', Nat.mod_mul]

/-- Byte k of MemRead(a, n) is BUF[a + k]. -/
theorem Memory.readLE_byte (m : Memory) {a n k : Nat} (h : k < n) :
    BitVec.ofNat 8 (Memory.readLE m a n / 256 ^ k) = Memory.read m (a + k) := by
  induction n generalizing a k with
  | zero => omega
  | succ n ih =>
    have hbyte := (Memory.read m a).isLt
    rw [Memory.readLE]
    cases k with
    | zero =>
      have hmod : ((Memory.read m a).toNat + 256 * Memory.readLE m (a + 1) n) % 2 ^ 8 = (Memory.read m a).toNat := by
        omega
      apply BitVec.eq_of_toNat_eq
      rw [BitVec.toNat_ofNat, Nat.pow_zero, Nat.div_one, hmod, Nat.add_zero]
    | succ k =>
      have hrest : ((Memory.read m a).toNat + 256 * Memory.readLE m (a + 1) n) / 256 = Memory.readLE m (a + 1) n := by
        omega
      rw [Nat.pow_succ', ← Nat.div_div_eq_div_mul, hrest, ih (by omega), Nat.add_right_comm, Nat.add_assoc]

theorem extractByte_eq (w : Word) (k : Nat) : w.extractLsb' (8 * k) 8 = BitVec.ofNat 8 (w.toNat / 256 ^ k) := by
  rw [BitVec.extractLsb', Nat.shiftRight_eq_div_pow, Nat.pow_mul]

/-- Byte k of a word just written is bits [8k+7:8k] of the word. -/
theorem Memory.read_writeLE_word (m : Memory) (a : Nat) (w : Word) {k : Nat} (h : k < 4) :
    Memory.read (Memory.writeLE m a 4 w.toNat) (a + k) = w.extractLsb' (8 * k) 8 := by
  rw [Memory.read_writeLE_inside m a 4 w.toNat k h, extractByte_eq]

/-- Bits [8k+7:8k] of a word of the window are BUF[off + k]. -/
theorem bufWord_extractByte (s : State) (off : Nat) {k : Nat} (h : k < 4) :
    (bufWord s off).extractLsb' (8 * k) 8 = Memory.read s.buf (off + k) := by
  have hlt : Memory.readLE s.buf off 4 < 2 ^ 32 := Memory.readLE_lt s.buf off 4
  rw [extractByte_eq, bufWord, BitVec.toNat_ofNat, Nat.mod_eq_of_lt hlt, Memory.readLE_byte s.buf h]

/-- A word of the window read after it was written. -/
theorem bufWord_of_written {s : State} {m : Memory} {off : Nat} {w : Word}
    (h : s.buf = Memory.writeLE m off 4 w.toNat) : bufWord s off = w := by
  have hw : w.toNat % 256 ^ 4 = w.toNat := Nat.mod_eq_of_lt w.isLt
  rw [bufWord, h, Memory.readLE_writeLE, hw, BitVec.ofNat_toNat, BitVec.setWidth_eq]

/-! One access while the core is idle. -/

/-- An offset of the port raises nothing (20_memory.md R66, R69). -/
theorem atOffset_of_port {addr : Nat} (s : State) (hlt : addr < 0x100) (h4 : addr % 4 = 0) :
    atOffset addr s = .next s := by
  rw [atOffset, if_neg (by omega), if_neg (by omega)]

theorem State.busy_eq_false {s : State} (h : s.running = none) : s.busy = false := by
  rw [State.busy, h, Option.isSome_none]

section

variable {s : State} {o : Bool} {rest : List HostEvent}

/-- With BUSY = 0 the next access of the host happens, overlapping or not (20_memory.md R66). -/
theorem step_of_idle {x : HostAccess} (hidle : s.running = none) (hin : s.inbox = ⟨x, o⟩ :: rest) :
    step s = hostAccess x { s with inbox := rest } := by
  rw [step, hidle, hin]

theorem step_read_of_idle {addr : Nat} (hidle : s.running = none) (hin : s.inbox = ⟨.read addr, o⟩ :: rest)
    (hlt : addr < 0x100) (h4 : addr % 4 = 0) :
    step s = .next { s with inbox := rest, readData := portRead s addr } := by
  have hread : hostRead { s with inbox := rest } addr = { s with inbox := rest, readData := portRead s addr } := by
    have hbusy : ({ s with inbox := rest } : State).busy = false := State.busy_eq_false hidle
    rw [hostRead, hbusy]
    rfl
  rw [step_of_idle hidle hin, hostAccess, atOffset_of_port _ hlt h4, hread]

theorem step_write_of_idle {addr : Nat} {w : Word} (hidle : s.running = none)
    (hin : s.inbox = ⟨.write addr w, o⟩ :: rest) (hlt : addr < 0x100) (h4 : addr % 4 = 0) :
    step s = .next (hostWrite { s with inbox := rest } addr w) := by
  rw [step_of_idle hidle hin, hostAccess, atOffset_of_port _ hlt h4]

theorem portRead_window (s : State) (m : Nat) : portRead s (0x80 + 4 * m) = bufWord s (4 * m) := by
  rw [portRead, if_neg (by omega), if_neg (by omega), if_neg (by omega), if_neg (by omega), if_pos (by omega),
    Nat.add_sub_cancel_left]

theorem hostWrite_window (m : Nat) (w : Word) (hidle : s.running = none) :
    hostWrite s (0x80 + 4 * m) w = { s with buf := Memory.writeLE s.buf (4 * m) 4 w.toNat } := by
  rw [hostWrite, if_neg (by omega), if_neg (by omega), if_neg (by omega), if_pos (by omega), Nat.add_sub_cancel_left,
    writeBuf, State.busy_eq_false hidle]
  rfl

theorem step_read_window {m : Nat} (hm : m < 32) (hidle : s.running = none)
    (hin : s.inbox = ⟨.read (0x80 + 4 * m), o⟩ :: rest) :
    step s = .next { s with inbox := rest, readData := bufWord s (4 * m) } := by
  rw [step_read_of_idle hidle hin (by omega) (by omega), portRead_window]

theorem step_write_window {m : Nat} {w : Word} (hm : m < 32) (hidle : s.running = none)
    (hin : s.inbox = ⟨.write (0x80 + 4 * m) w, o⟩ :: rest) :
    step s = .next { s with inbox := rest, buf := Memory.writeLE s.buf (4 * m) 4 w.toNat } := by
  rw [step_write_of_idle hidle hin (by omega) (by omega)]
  exact congrArg Host.Outcome.next (hostWrite_window m w hidle)

/-- The word just written to the window is what a read of it returns. -/
theorem step_read_written_window {m : Nat} {w : Word} {b : Memory} (hm : m < 32) (hidle : s.running = none)
    (hin : s.inbox = ⟨.read (0x80 + 4 * m), o⟩ :: rest) (hbuf : s.buf = Memory.writeLE b (4 * m) 4 w.toNat) :
    step s = .next { s with inbox := rest, readData := w } := by
  rw [step_read_window hm hidle hin, bufWord_of_written hbuf]

end

/-- Settles O14: a write is MemWrite of four bytes at 4m (step_write_window), a read is MemRead of them
(step_read_window), and a read of the word just written gives it back (step_read_written_window). -/
theorem bufWindowIsLittleEndian : Obligations.BufWindowIsLittleEndian := by
  intro s m w o rest hidle hm
  refine ⟨fun hin => ?write, fun hin => ?read, fun o' rest' hin => ?writeThenRead⟩
  case write =>
    exact ⟨_, step_write_window hm hidle hin, fun k hk => Memory.read_writeLE_word s.buf (4 * m) w hk,
      fun a ha => Memory.read_writeLE_outside s.buf (4 * m) 4 w.toNat a ha⟩
  case read =>
    exact ⟨_, step_read_window hm hidle hin, fun k hk => bufWord_extractByte s (4 * m) hk⟩
  case writeThenRead =>
    exact ⟨_, step_write_window hm hidle hin, step_read_written_window hm hidle rfl rfl, rfl⟩

end Sys2Proof.Machine
end

section
/-! The fields of a command word, as numbers (30_encoding.md R91, R92, R100). -/

namespace Sys2Proof

/-- The values of the fields rd, rs1, rs2, rs3, rs4 of a word, or a bound on each. -/
structure Fields where
  rd : Nat
  rs1 : Nat
  rs2 : Nat
  rs3 : Nat
  rs4 : Nat

/-- Every field is below its bound. -/
abbrev Fields.Below (f b : Fields) : Prop :=
  f.rd < b.rd ∧ f.rs1 < b.rs1 ∧ f.rs2 < b.rs2 ∧ f.rs3 < b.rs3 ∧ f.rs4 < b.rs4

/-- Every value fits the four bits of its field. -/
abbrev Fields.Fit (f : Fields) : Prop := f.Below ⟨16, 16, 16, 16, 16⟩

def fieldsOf (w : Word) : Fields :=
  ⟨(rdOf w).toNat, (rs1Of w).toNat, (rs2Of w).toNat, (rs3Of w).toNat, (rs4Of w).toNat⟩

theorem opcodeOf_toNat (w : Word) : (opcodeOf w).toNat = w.toNat / 0x1000000 % 256 := by
  rw [opcodeOf, BitVec.extractLsb'_toNat, Nat.shiftRight_eq_div_pow]

theorem rdOf_toNat (w : Word) : (rdOf w).toNat = w.toNat / 0x100000 % 16 := by
  rw [rdOf, BitVec.extractLsb'_toNat, Nat.shiftRight_eq_div_pow]

theorem rs1Of_toNat (w : Word) : (rs1Of w).toNat = w.toNat / 0x10000 % 16 := by
  rw [rs1Of, BitVec.extractLsb'_toNat, Nat.shiftRight_eq_div_pow]

theorem rs2Of_toNat (w : Word) : (rs2Of w).toNat = w.toNat / 0x1000 % 16 := by
  rw [rs2Of, BitVec.extractLsb'_toNat, Nat.shiftRight_eq_div_pow]

theorem rs3Of_toNat (w : Word) : (rs3Of w).toNat = w.toNat / 0x100 % 16 := by
  rw [rs3Of, BitVec.extractLsb'_toNat, Nat.shiftRight_eq_div_pow]

theorem rs4Of_toNat (w : Word) : (rs4Of w).toNat = w.toNat / 0x10 % 16 := by
  rw [rs4Of, BitVec.extractLsb'_toNat, Nat.shiftRight_eq_div_pow]

theorem lowNibbleOf_toNat (w : Word) : (lowNibbleOf w).toNat = w.toNat % 16 := by
  rw [lowNibbleOf, BitVec.extractLsb'_toNat, Nat.shiftRight_zero]

/-- imm8 is the fields rs3 and rs4 (30_encoding.md R92). -/
theorem imm8Of_toNat (w : Word) : (imm8Of w).toNat = 16 * (rs3Of w).toNat + (rs4Of w).toNat := by
  simp only [imm8Of, BitVec.extractLsb'_toNat, Nat.shiftRight_eq_div_pow, rs3Of_toNat, rs4Of_toNat]
  omega

/-- A format R word is the one word with its opcode and fields (30_encoding.md R100). -/
theorem packR_eq_iff {w : Word} {op : Nat} {f : Fields} (hop : op < 256) (hf : f.Fit) :
    packR op f.rd f.rs1 f.rs2 f.rs3 f.rs4 = w
      ↔ (opcodeOf w).toNat = op ∧ (lowNibbleOf w).toNat = 0 ∧ fieldsOf w = f := by
  cases f
  simp only [Fields.Fit, Fields.Below] at hf
  simp only [packR, fieldsOf, Fields.mk.injEq, ← BitVec.toNat_inj, opcodeOf_toNat, rdOf_toNat, rs1Of_toNat,
    rs2Of_toNat, rs3Of_toNat, rs4Of_toNat, lowNibbleOf_toNat, BitVec.toNat_ofNat]
  omega

/-- A format I word is a format R word with imm8 in the fields rs3 and rs4 (30_encoding.md R92). -/
theorem packI_eq_packR (op rd imm : Nat) : packI op rd imm = packR op rd 0 0 (imm / 16) (imm % 16) := by
  rw [packI, packR]
  congr 1
  omega

end Sys2Proof
end

section
/-! When each check of the decoder accepts a word (30_encoding.md R102, checks (2) to (5)). -/

namespace Sys2Proof

theorem pure_eq_ok_iff {ε α : Type} {a b : α} : (pure a : Except ε α) = .ok b ↔ a = b :=
  Except.ok.injEq a b ▸ Iff.rfl

theorem bind_eq_ok_iff {ε α β : Type} {x : Except ε α} {f : α → Except ε β} {b : β} :
    x >>= f = .ok b ↔ ∃ a, x = .ok a ∧ f a = .ok b := by
  cases x with
  | error e => exact ⟨nofun, nofun⟩
  | ok a => exact ⟨fun h => ⟨a, rfl, h⟩, by rintro ⟨_, ⟨⟩, h⟩; exact h⟩

theorem bitVec_eq_zero_iff {n : Nat} (f : BitVec n) : f = 0 ↔ f.toNat = 0 := by
  rw [← BitVec.toNat_inj]
  rfl

theorem checkZeros_eq_ok_iff (w : Word) (unused : List (BitVec 4)) (u : Unit) :
    checkZeros w unused = .ok u ↔ (lowNibbleOf w).toNat = 0 ∧ ∀ f ∈ unused, f.toNat = 0 := by
  have hany : unused.any (fun f => decide (f ≠ 0)) = true ↔ ¬∀ f ∈ unused, f = 0 := by
    simp only [List.any_eq_true, decide_eq_true_eq, not_forall, exists_prop]
  simp only [← bitVec_eq_zero_iff]
  rw [checkZeros]
  split_ifs with hlow hunused
  · exact ⟨nofun, fun h => absurd h.1 hlow⟩
  · exact ⟨nofun, fun h => absurd h.2 (hany.1 hunused)⟩
  · exact ⟨fun _ => ⟨not_not.1 hlow, not_not.1 (mt hany.2 hunused)⟩, fun _ => rfl⟩

theorem regField_eq_ok_iff {n : Nat} (f : BitVec 4) (r : Fin n) : regField n f = .ok r ↔ f.toNat = r := by
  rw [regField]
  split_ifs with h
  · rw [Except.ok.injEq, Fin.ext_iff]
  · exact ⟨nofun, fun e => absurd (e ▸ r.isLt) h⟩

theorem immField_eq_ok_iff (m : Nat) (v u : BitVec 8) : immField m v = .ok u ↔ u.toNat ≤ m ∧ v.toNat = u.toNat := by
  rw [immField, BitVec.toNat_inj]
  split_ifs with h
  · rw [Except.ok.injEq]
    exact ⟨fun e => ⟨e ▸ h, e⟩, And.right⟩
  · exact ⟨nofun, fun ⟨hu, e⟩ => absurd (e ▸ hu) h⟩

end Sys2Proof
end

section
/-! The decoder as a table: to each assigned opcode the form of its words (30_encoding.md R95). -/

namespace Sys2Proof

/-- A well-formed instruction, whose word has this opcode and these fields (30_encoding.md R100). -/
abbrev IsWord (op : Nat) (i : Instr) (f : Fields) : Prop :=
  f.Fit ∧ i.wf = true ∧ encode i = packR op f.rd f.rs1 f.rs2 f.rs3 f.rs4

theorem fit_mk {rd rs1 rs2 rs3 rs4 : Nat} (h : rd < 16 ∧ rs1 < 16 ∧ rs2 < 16 ∧ rs3 < 16 ∧ rs4 < 16) :
    Fields.Fit ⟨rd, rs1, rs2, rs3, rs4⟩ :=
  h

theorem fit_imm {d : PReg} {v : BitVec 8} : Fields.Fit ⟨d, 0, 0, v.toNat / 16, v.toNat % 16⟩ :=
  fit_mk (by omega)

/-- The words of one opcode, a constructor for each form of the decoder (format I is imm): the used fields with the
number of registers each may name, the instruction they make, and that the encoder gives it this opcode and these
fields. -/
inductive Format (op : Nat) where
  | none (i : Instr) (word : IsWord op i ⟨0, 0, 0, 0, 0⟩ := by exact ⟨fit_mk (by omega), rfl, rfl⟩)
  | d (nd : Nat) (mk : Fin nd → Instr)
      (word : ∀ d, IsWord op (mk d) ⟨d, 0, 0, 0, 0⟩ := by exact fun _ => ⟨fit_mk (by omega), rfl, rfl⟩)
  | a (na : Nat) (mk : Fin na → Instr)
      (word : ∀ a, IsWord op (mk a) ⟨0, a, 0, 0, 0⟩ := by exact fun _ => ⟨fit_mk (by omega), rfl, rfl⟩)
  | ab (na nb : Nat) (mk : Fin na → Fin nb → Instr)
      (word : ∀ a b, IsWord op (mk a b) ⟨0, a, b, 0, 0⟩ := by
        exact fun _ _ => ⟨fit_mk (by omega), rfl, rfl⟩)
  | da (nd na : Nat) (mk : Fin nd → Fin na → Instr)
      (word : ∀ d a, IsWord op (mk d a) ⟨d, a, 0, 0, 0⟩ := by
        exact fun _ _ => ⟨fit_mk (by omega), rfl, rfl⟩)
  | dab (nd na nb : Nat) (mk : Fin nd → Fin na → Fin nb → Instr)
      (word : ∀ d a b, IsWord op (mk d a b) ⟨d, a, b, 0, 0⟩ := by
        exact fun _ _ _ => ⟨fit_mk (by omega), rfl, rfl⟩)
  | dabc (nd na nb nc : Nat) (mk : Fin nd → Fin na → Fin nb → Fin nc → Instr)
      (word : ∀ d a b c, IsWord op (mk d a b c) ⟨d, a, b, c, 0⟩ := by
        exact fun _ _ _ _ => ⟨fit_mk (by omega), rfl, rfl⟩)
  | dabce (nd na nb nc ne : Nat) (mk : Fin nd → Fin na → Fin nb → Fin nc → Fin ne → Instr)
      (word : ∀ d a b c e, IsWord op (mk d a b c e) ⟨d, a, b, c, e⟩ := by
        exact fun _ _ _ _ _ => ⟨fit_mk (by omega), rfl, rfl⟩)
  | imm (nd m : Nat) (mk : Fin nd → BitVec 8 → Instr)
      (word : ∀ d v, v.toNat ≤ m → IsWord op (mk d v) ⟨d, 0, 0, v.toNat / 16, v.toNat % 16⟩)

/-- The opcode map (30_encoding.md R95). -/
def formatOf : (op : Nat) → Option (Format op)
  | 0x00 => some (.none .nop)
  | 0x10 => some (.dab 8 8 8 .fadd)
  | 0x11 => some (.dab 8 8 8 .fsub)
  | 0x12 => some (.dab 8 8 8 .fmul)
  | 0x13 => some (.da 8 8 .fsqr)
  | 0x14 => some (.da 8 8 .fneg)
  | 0x15 => some (.da 8 8 .finv)
  | 0x16 => some (.a 8 .fisz)
  | 0x17 => some (.ab 8 8 .feq)
  | 0x18 => some (.a 8 .ftob)
  | 0x19 => some (.d 8 .ffromb)
  | 0x20 => some (.dab 8 8 8 .eadd)
  | 0x21 => some (.dab 8 8 8 .esub)
  | 0x22 => some (.dab 8 8 8 .emul)
  | 0x23 => some (.da 8 8 .esqr)
  | 0x24 => some (.da 8 8 .eneg)
  | 0x25 => some (.da 8 8 .einv)
  | 0x26 => some (.a 8 .eisz)
  | 0x27 => some (.ab 8 8 .eeq)
  | 0x28 => some (.a 8 .etob)
  | 0x29 => some (.d 8 .efromb)
  | 0x2A => some (.da 8 8 .econj)
  | 0x2B => some (.dab 8 8 8 .epack)
  | 0x2C => some (.da 8 8 .ere)
  | 0x2D => some (.da 8 8 .eim)
  | 0x30 => some (.d 4 .pid)
  | 0x31 => some (.dab 4 4 4 .padd)
  | 0x32 => some (.da 4 4 .pdbl)
  | 0x33 => some (.da 4 4 .pneg)
  | 0x34 => some (.a 4 .ponc)
  | 0x35 => some (.da 8 4 .paffx)
  | 0x36 => some (.da 8 4 .paffy)
  | 0x37 => some (.ab 4 4 .peq)
  | 0x38 => some (.dab 4 8 8 .pseta)
  | 0x39 => some (.ab 8 8 .eonc)
  | 0x3A => some (.da 4 4 .pphi)
  | 0x3B => some (.da 4 4 .ppsi)
  | 0x3C => some (.d 4 .pgen)
  | 0x40 => some (.d 4 .kfromb)
  | 0x41 => some (.a 4 .ktob)
  | 0x42 => some (.d 4 .kred)
  | 0x43 => some (.a 4 .decomp)
  | 0x44 => some (.none .qtob)
  | 0x45 => some (.none .recode)
  | 0x46 => some (.none .dtob)
  | 0x50 => some (.a 4 .tbuild)
  | 0x51 => some (.imm 4 7 .trd fun _ _ h => ⟨fit_imm, decide_eq_true h, packI_eq_packR _ _ _⟩)
  | 0x52 => some (.imm 4 64 .tsel fun _ _ h => ⟨fit_imm, decide_eq_true h, packI_eq_packR _ _ _⟩)
  | 0x53 => some (.dab 4 4 4 .smul)
  | 0x54 => some (.dabce 4 4 4 4 4 .dsmul)
  | 0x55 => some (.dabc 4 4 4 4 .dsmulg)
  | 0x60 => some (.a 4 .penc)
  | 0x61 => some (.d 4 .pdec)
  | _ => Option.none

namespace Format

variable {op : Nat}

/-- The decoder's form. -/
def decode (w : Word) : Format op → Except Illegal Instr
  | none i _ => formNone w i
  | d nd mk _ => formD nd w mk
  | a na mk _ => formA na w mk
  | ab na nb mk _ => formAB na nb w mk
  | da nd na mk _ => formDA nd na w mk
  | dab nd na nb mk _ => formDAB nd na nb w mk
  | dabc nd na nb nc mk _ => formDABC nd na nb nc w mk
  | dabce nd na nb nc ne mk _ => formDABCE nd na nb nc ne w mk
  | imm nd m mk _ => formI nd m w mk

/-- The fields f make the instruction i: unused fields are 0, registers and imm8 are in range. -/
def Makes (i : Instr) (f : Fields) : Format op → Prop
  | none j _ => j = i ∧ f = ⟨0, 0, 0, 0, 0⟩
  | d _ mk _ => ∃ d, mk d = i ∧ f = ⟨d, 0, 0, 0, 0⟩
  | a _ mk _ => ∃ a, mk a = i ∧ f = ⟨0, a, 0, 0, 0⟩
  | ab _ _ mk _ => ∃ a b, mk a b = i ∧ f = ⟨0, a, b, 0, 0⟩
  | da _ _ mk _ => ∃ d a, mk d a = i ∧ f = ⟨d, a, 0, 0, 0⟩
  | dab _ _ _ mk _ => ∃ d a b, mk d a b = i ∧ f = ⟨d, a, b, 0, 0⟩
  | dabc _ _ _ _ mk _ => ∃ d a b c, mk d a b c = i ∧ f = ⟨d, a, b, c, 0⟩
  | dabce _ _ _ _ _ mk _ => ∃ d a b c e, mk d a b c e = i ∧ f = ⟨d, a, b, c, e⟩
  | imm _ m mk _ => ∃ d v, v.toNat ≤ m ∧ mk d v = i ∧ f = ⟨d, 0, 0, v.toNat / 16, v.toNat % 16⟩

/-- A form accepts a word just when bits 3:0 are zero and its fields make an instruction. -/
theorem decode_eq_ok_iff (F : Format op) (w : Word) (i : Instr) :
    F.decode w = .ok i ↔ (lowNibbleOf w).toNat = 0 ∧ F.Makes i (fieldsOf w) := by
  cases F with
  | imm nd m mk =>
    have himm (n : Nat) : (imm8Of w).toNat = n ↔ (rs3Of w).toNat = n / 16 ∧ (rs4Of w).toNat = n % 16 := by
      rw [imm8Of_toNat]
      omega
    simp only [decode, Makes, formI, fieldsOf, Fields.mk.injEq, bind_eq_ok_iff, pure_eq_ok_iff, checkZeros_eq_ok_iff,
      regField_eq_ok_iff, immField_eq_ok_iff, himm, List.forall_mem_cons]
    grind
  | _ =>
    simp only [decode, Makes, formNone, formD, formA, formAB, formDA, formDAB, formDABC, formDABCE, fieldsOf,
      Fields.mk.injEq, bind_eq_ok_iff, pure_eq_ok_iff, checkZeros_eq_ok_iff, regField_eq_ok_iff,
      List.forall_mem_cons]
    grind

/-- What a form makes is well-formed, and the fields it is made from are those of its word. -/
theorem Makes.isWord {F : Format op} {i : Instr} {f : Fields} (h : F.Makes i f) : IsWord op i f := by
  cases F with
  | imm nd m mk word => obtain ⟨d, v, hv, rfl, rfl⟩ := h; exact word d v hv
  | none j word => obtain ⟨rfl, rfl⟩ := h; exact word
  | d nd mk word => obtain ⟨d, rfl, rfl⟩ := h; exact word d
  | a na mk word => obtain ⟨a, rfl, rfl⟩ := h; exact word a
  | ab na nb mk word => obtain ⟨a, b, rfl, rfl⟩ := h; exact word a b
  | da nd na mk word => obtain ⟨d, a, rfl, rfl⟩ := h; exact word d a
  | dab nd na nb mk word => obtain ⟨d, a, b, rfl, rfl⟩ := h; exact word d a b
  | dabc nd na nb nc mk word => obtain ⟨d, a, b, c, rfl, rfl⟩ := h; exact word d a b c
  | dabce nd na nb nc ne mk word => obtain ⟨d, a, b, c, e, rfl, rfl⟩ := h; exact word d a b c e

end Format

/-- The table is the decoder's (30_encoding.md R102, check (1)). -/
theorem decode_eq (w : Word) :
    decode w = (formatOf (opcodeOf w).toNat).elim (.error .unassignedOpcode) (Format.decode w) := by
  rw [decode]
  generalize (opcodeOf w).toNat = op
  split
  case h_54 => simp [formatOf, *]
  all_goals rfl

end Sys2Proof
end

section
/-! The decoder and the encoder are inverse to each other (30_encoding.md R97). -/

namespace Sys2Proof

open Sys2Proof.Laws (opcodeNumber)

theorem opcodeNumber_lt (i : Instr) : opcodeNumber i < 256 := by
  cases i <;> simp [opcodeNumber]

/-- Every well-formed instruction has its form in the table. -/
theorem exists_format_makes {i : Instr} (h : i.wf = true) :
    ∃ F f, formatOf (opcodeNumber i) = some F ∧ F.Makes i f := by
  cases i with
  | nop | qtob | recode | dtob => exact ⟨_, _, rfl, rfl, rfl⟩
  | ffromb d | efromb d | pid d | pgen d | kfromb d | kred d | pdec d => exact ⟨_, _, rfl, d, rfl, rfl⟩
  | fisz a | ftob a | eisz a | etob a | ponc a | ktob a | decomp a | tbuild a | penc a =>
    exact ⟨_, _, rfl, a, rfl, rfl⟩
  | feq a b | eeq a b | peq a b | eonc a b => exact ⟨_, _, rfl, a, b, rfl, rfl⟩
  | fsqr d a | fneg d a | finv d a | esqr d a | eneg d a | einv d a | econj d a | ere d a | eim d a | pdbl d a
  | pneg d a | paffx d a | paffy d a | pphi d a | ppsi d a => exact ⟨_, _, rfl, d, a, rfl, rfl⟩
  | fadd d a b | fsub d a b | fmul d a b | eadd d a b | esub d a b | emul d a b | epack d a b | padd d a b
  | pseta d a b | smul d a b => exact ⟨_, _, rfl, d, a, b, rfl, rfl⟩
  | dsmulg d a b c => exact ⟨_, _, rfl, d, a, b, c, rfl, rfl⟩
  | dsmul d a b c e => exact ⟨_, _, rfl, d, a, b, c, e, rfl, rfl⟩
  | trd d v | tsel d v => exact ⟨_, _, rfl, d, v, of_decide_eq_true h, rfl, rfl⟩

/-- The legal words are those of some instruction's form. -/
theorem decode_eq_ok_iff (w : Word) (i : Instr) :
    decode w = .ok i
      ↔ ∃ F, formatOf (opcodeOf w).toNat = some F ∧ (lowNibbleOf w).toNat = 0 ∧ F.Makes i (fieldsOf w) := by
  rw [decode_eq]
  cases formatOf (opcodeOf w).toNat with
  | none => exact ⟨nofun, nofun⟩
  | some F => simp [F.decode_eq_ok_iff]

/-- A legal word is the encoding of what it decodes to. -/
theorem wf_and_encode_of_decode {w : Word} {i : Instr} (h : decode w = .ok i) : i.wf = true ∧ encode i = w := by
  obtain ⟨F, -, hlow, hmakes⟩ := (decode_eq_ok_iff w i).1 h
  obtain ⟨hfit, hwf, henc⟩ := hmakes.isWord
  exact ⟨hwf, henc.trans ((packR_eq_iff (opcodeOf w).isLt hfit).2 ⟨rfl, hlow, rfl⟩)⟩

/-- Settles O2: the word has the opcode and the fields of the instruction's form, so that form reads it back. -/
theorem decodeOfEncodeIsIdentity : Obligations.DecodeOfEncodeIsIdentity := by
  intro i hwf
  obtain ⟨F, f, hF, hmakes⟩ := exists_format_makes hwf
  obtain ⟨hfit, -, henc⟩ := hmakes.isWord
  obtain ⟨hop, hlow, hfields⟩ := (packR_eq_iff (opcodeNumber_lt i) hfit).1 henc.symm
  rw [decode_eq, hop, hF]
  exact (F.decode_eq_ok_iff _ i).2 ⟨hlow, hfields ▸ hmakes⟩

/-- Settles O3: the decoder's result is well-formed and encodes to the word (wf_and_encode_of_decode). -/
theorem eachLegalWordHasOneReading : Obligations.EachLegalWordHasOneReading := by
  constructor
  · intro w i h
    obtain ⟨hwf, henc⟩ := wf_and_encode_of_decode h
    exact ⟨hwf, henc, henc.symm ▸ h⟩
  · intro w w' i h h'
    calc w = encode i := (wf_and_encode_of_decode h).2.symm
      _ = w' := (wf_and_encode_of_decode h').2

end Sys2Proof
end

section
/-! The masks and matches of the opcode table (30_encoding.md R95, R102). -/

namespace Sys2Proof

open Sys2Proof.Machine (tableRows)

/-- How many values a mask can leave a field here: 0 alone, a file of 4 or of 8 registers, or every value. -/
abbrev FieldSize (n : Nat) : Prop := n = 1 ∨ n = 4 ∨ n = 8 ∨ n = 16

abbrev Fields.Sizes (b : Fields) : Prop :=
  FieldSize b.rd ∧ FieldSize b.rs1 ∧ FieldSize b.rs2 ∧ FieldSize b.rs3 ∧ FieldSize b.rs4

/-- The mask for fields below b: the opcode, the bits that each field must have zero, and bits 3:0. -/
def maskOf (b : Fields) : Word :=
  BitVec.ofNat 32 (0x1000000 * 0xFF + 0x100000 * (16 - b.rd) + 0x10000 * (16 - b.rs1) + 0x1000 * (16 - b.rs2)
    + 0x100 * (16 - b.rs3) + 0x10 * (16 - b.rs4) + 0xF)

/-- The row of the opcode op for fields below b: mask and match. -/
def rowOf (op : Nat) (b : Fields) : Word × Word := (maskOf b, packR op 0 0 0 0 0)

theorem nibble_and_eq_zero_iff {n : Nat} (h : FieldSize n) (f : BitVec 4) :
    f &&& BitVec.ofNat 4 (16 - n) = 0 ↔ f.toNat < n := by
  obtain rfl | rfl | rfl | rfl := h <;> revert f <;> decide

theorem opcodeOf_and (w m : Word) : opcodeOf (w &&& m) = opcodeOf w &&& opcodeOf m := BitVec.extractLsb'_and
theorem rdOf_and (w m : Word) : rdOf (w &&& m) = rdOf w &&& rdOf m := BitVec.extractLsb'_and
theorem rs1Of_and (w m : Word) : rs1Of (w &&& m) = rs1Of w &&& rs1Of m := BitVec.extractLsb'_and
theorem rs2Of_and (w m : Word) : rs2Of (w &&& m) = rs2Of w &&& rs2Of m := BitVec.extractLsb'_and
theorem rs3Of_and (w m : Word) : rs3Of (w &&& m) = rs3Of w &&& rs3Of m := BitVec.extractLsb'_and
theorem rs4Of_and (w m : Word) : rs4Of (w &&& m) = rs4Of w &&& rs4Of m := BitVec.extractLsb'_and
theorem lowNibbleOf_and (w m : Word) : lowNibbleOf (w &&& m) = lowNibbleOf w &&& lowNibbleOf m :=
  BitVec.extractLsb'_and

/-- The fields of a row's mask. -/
theorem maskOf_fields {b : Fields} (hb : b.Sizes) :
    opcodeOf (maskOf b) = BitVec.allOnes 8 ∧ rdOf (maskOf b) = BitVec.ofNat 4 (16 - b.rd)
      ∧ rs1Of (maskOf b) = BitVec.ofNat 4 (16 - b.rs1) ∧ rs2Of (maskOf b) = BitVec.ofNat 4 (16 - b.rs2)
      ∧ rs3Of (maskOf b) = BitVec.ofNat 4 (16 - b.rs3) ∧ rs4Of (maskOf b) = BitVec.ofNat 4 (16 - b.rs4)
      ∧ lowNibbleOf (maskOf b) = BitVec.allOnes 4 := by
  simp only [← BitVec.toNat_inj, maskOf, opcodeOf_toNat, rdOf_toNat, rs1Of_toNat, rs2Of_toNat, rs3Of_toNat,
    rs4Of_toNat, lowNibbleOf_toNat, BitVec.toNat_ofNat, BitVec.toNat_allOnes]
  have hpos : 1 ≤ b.rd ∧ 1 ≤ b.rs1 ∧ 1 ≤ b.rs2 ∧ 1 ≤ b.rs3 ∧ 1 ≤ b.rs4 := by omega
  clear hb
  omega

/-- The row's mask and match test the opcode, bits 3:0 and the range of each field, and nothing else. -/
theorem and_rowOf_iff {op : Nat} {b : Fields} (hop : op < 256) (hb : b.Sizes) (w : Word) :
    w &&& (rowOf op b).1 = (rowOf op b).2
      ↔ (opcodeOf w).toNat = op ∧ (lowNibbleOf w).toNat = 0 ∧ (fieldsOf w).Below b := by
  have hzero : Fields.Fit ⟨0, 0, 0, 0, 0⟩ := by decide
  obtain ⟨mop, m0, m1, m2, m3, m4, mlow⟩ := maskOf_fields hb
  obtain ⟨s0, s1, s2, s3, s4⟩ := hb
  rw [rowOf, eq_comm, packR_eq_iff (f := ⟨0, 0, 0, 0, 0⟩) hop hzero, fieldsOf, Fields.mk.injEq]
  simp only [opcodeOf_and, rdOf_and, rs1Of_and, rs2Of_and, rs3Of_and, rs4Of_and, lowNibbleOf_and,
    mop, m0, m1, m2, m3, m4, mlow, BitVec.and_allOnes, ← bitVec_eq_zero_iff, nibble_and_eq_zero_iff s0,
    nibble_and_eq_zero_iff s1, nibble_and_eq_zero_iff s2, nibble_and_eq_zero_iff s3, nibble_and_eq_zero_iff s4]
  rfl

namespace Format

variable {op : Nat}

/-- The bounds on the single fields that say which words the form accepts; none where the bound on imm8 spans two
fields. -/
def bounds : Format op → Option Fields
  | none .. => some ⟨1, 1, 1, 1, 1⟩
  | d nd .. => some ⟨nd, 1, 1, 1, 1⟩
  | a na .. => some ⟨1, na, 1, 1, 1⟩
  | ab na nb .. => some ⟨1, na, nb, 1, 1⟩
  | da nd na .. => some ⟨nd, na, 1, 1, 1⟩
  | dab nd na nb .. => some ⟨nd, na, nb, 1, 1⟩
  | dabc nd na nb nc .. => some ⟨nd, na, nb, nc, 1⟩
  | dabce nd na nb nc ne .. => some ⟨nd, na, nb, nc, ne⟩
  | imm nd m .. => if m < 16 then some ⟨nd, 1, 1, 1, m + 1⟩ else Option.none

/-- A form with imm8 bounds the number that rs3 and rs4 hold together. -/
theorem exists_makes_imm_iff {nd m : Nat} {mk : Fin nd → BitVec 8 → Instr} (f : Fields)
    (word : ∀ d v, v.toNat ≤ m → IsWord op (mk d v) ⟨d, 0, 0, v.toNat / 16, v.toNat % 16⟩) :
    (∃ i, (imm nd m mk word).Makes i f) ↔ f.Below ⟨nd, 1, 1, 16, 16⟩ ∧ 16 * f.rs3 + f.rs4 ≤ m := by
  constructor
  · rintro ⟨_, d, v, hv, -, rfl⟩
    simp only [Fields.Below]
    omega
  · intro h
    obtain ⟨rd, rs1, rs2, rs3, rs4⟩ := f
    simp only [Fields.Below] at h
    have hv : (BitVec.ofNat 8 (16 * rs3 + rs4)).toNat = 16 * rs3 + rs4 := by
      rw [BitVec.toNat_ofNat]
      omega
    refine ⟨_, ⟨rd, h.1.1⟩, BitVec.ofNat 8 (16 * rs3 + rs4), hv.trans_le h.2, rfl, ?_⟩
    simp only [hv, Fields.mk.injEq, true_and]
    omega

/-- Within its bounds, every value of the fields makes an instruction, and no value beyond them does. -/
theorem exists_makes_iff {F : Format op} {b f : Fields} (h : F.bounds = some b) :
    (∃ i, F.Makes i f) ↔ f.Below b := by
  cases F with
  | imm nd m mk =>
    obtain ⟨hm, rfl⟩ : m < 16 ∧ Fields.mk nd 1 1 1 (m + 1) = b := by simpa [bounds] using h
    rw [exists_makes_imm_iff]
    simp only [Fields.Below]
    omega
  | _ =>
    cases h
    cases f
    simp only [Makes, Fields.mk.injEq, Fields.Below, Fin.exists_iff]
    grind

end Format

/-- The bounds of an opcode's form. -/
def boundsAt (op : Nat) : Option Fields := (formatOf op).bind Format.bounds

/-- The opcode table's rows are those of the formats with bounds, in the order of their opcodes. -/
theorem tableRows_eq : tableRows = (List.range 256).filterMap fun op => (boundsAt op).map (rowOf op) := by
  decide +kernel

theorem sizes_of_mem_boundsAt : ∀ b ∈ (List.range 256).filterMap boundsAt, b.Sizes := by
  decide +kernel

/-- TSEL alone has a form whose range is not a mask's: imm8 of at most 64. -/
theorem formatOf_of_boundsAt_none : ∀ op < 256, op ≠ 0x52 → (boundsAt op).isNone → (formatOf op).isNone := by
  decide +kernel

/-- Some row accepts w just when its opcode has a row and its fields keep that row's bounds. -/
theorem exists_row_iff (w : Word) :
    (∃ r ∈ tableRows, w &&& r.1 = r.2)
      ↔ ∃ b, boundsAt (opcodeOf w).toNat = some b ∧ (lowNibbleOf w).toNat = 0 ∧ (fieldsOf w).Below b := by
  have hsizes {op : Nat} {b : Fields} (hop : op < 256) (hb : boundsAt op = some b) : b.Sizes :=
    sizes_of_mem_boundsAt b (List.mem_filterMap.2 ⟨op, List.mem_range.2 hop, hb⟩)
  simp only [tableRows_eq, List.mem_filterMap, List.mem_range, Option.map_eq_some_iff]
  constructor
  · rintro ⟨_, ⟨op, hop, b, hb, rfl⟩, hw⟩
    obtain ⟨rfl, hlow, hbelow⟩ := (and_rowOf_iff hop (hsizes hop hb) w).1 hw
    exact ⟨b, hb, hlow, hbelow⟩
  · rintro ⟨b, hb, hlow, hbelow⟩
    have hop := (opcodeOf w).isLt
    exact ⟨_, ⟨_, hop, b, hb, rfl⟩, (and_rowOf_iff hop (hsizes hop hb) w).2 ⟨rfl, hlow, hbelow⟩⟩

/-- TSEL's mask and match, and the check of imm8 that they leave (30_encoding.md R102). -/
theorem tsel_row_iff (w : Word) :
    w &&& 0xFFCFF80F = 0x52000000 ∧ ((w >>> 4) &&& 0xFF).toNat ≤ 64
      ↔ (opcodeOf w).toNat = 0x52 ∧ (lowNibbleOf w).toNat = 0 ∧ (fieldsOf w).Below ⟨4, 1, 1, 8, 16⟩
        ∧ (imm8Of w).toNat ≤ 64 := by
  have hrow : rowOf 0x52 ⟨4, 1, 1, 8, 16⟩ = (0xFFCFF80F, 0x52000000) := by decide
  have hmask := and_rowOf_iff (op := 0x52) (b := ⟨4, 1, 1, 8, 16⟩) (by decide) (by decide) w
  have himm : ((w >>> 4) &&& 0xFF).toNat = (imm8Of w).toNat := by
    rw [imm8Of, BitVec.toNat_and, BitVec.toNat_ushiftRight, BitVec.extractLsb'_toNat]
    exact Nat.and_two_pow_sub_one_eq_mod _ 8
  rw [hrow] at hmask
  rw [hmask, himm, and_assoc, and_assoc]

/-- A word of an assigned opcode is legal just when bits 3:0 are zero and its fields make an instruction. -/
theorem legal_iff {w : Word} {op : Nat} {F : Format op} (hop : (opcodeOf w).toNat = op) (hF : formatOf op = some F) :
    (∃ i, decode w = .ok i) ↔ (lowNibbleOf w).toNat = 0 ∧ ∃ i, F.Makes i (fieldsOf w) := by
  subst hop
  simp only [decode_eq, hF, Option.elim_some, F.decode_eq_ok_iff, exists_and_left]

theorem legal_iff_of_bounds {w : Word} {b : Fields} (hb : boundsAt (opcodeOf w).toNat = some b) :
    (∃ i, decode w = .ok i) ↔ (lowNibbleOf w).toNat = 0 ∧ (fieldsOf w).Below b := by
  obtain ⟨F, hF, hFb⟩ := Option.bind_eq_some_iff.1 hb
  rw [legal_iff rfl hF, F.exists_makes_iff hFb]

theorem legal_iff_of_tsel {w : Word} (hop : (opcodeOf w).toNat = 0x52) :
    (∃ i, decode w = .ok i)
      ↔ (lowNibbleOf w).toNat = 0 ∧ (fieldsOf w).Below ⟨4, 1, 1, 8, 16⟩ ∧ (imm8Of w).toNat ≤ 64 := by
  rw [legal_iff hop rfl, Format.exists_makes_imm_iff, imm8Of_toNat]
  simp only [fieldsOf, Fields.Below]
  omega

/-- Settles O4: an opcode has a row (exists_row_iff, legal_iff_of_bounds), is TSEL's (tsel_row_iff, legal_iff_of_tsel)
or is not assigned. -/
theorem legalWordsAreTheTables : Obligations.LegalWordsAreTheTables := by
  intro w
  rw [exists_row_iff, tsel_row_iff]
  cases hb : boundsAt (opcodeOf w).toNat with
  | some b =>
    have hop : (opcodeOf w).toNat ≠ 0x52 := fun h => nomatch (h ▸ hb : boundsAt 0x52 = some b)
    simp [legal_iff_of_bounds hb, hop]
  | none =>
    by_cases hop : (opcodeOf w).toNat = 0x52
    · simp [legal_iff_of_tsel hop, hop]
    · have hF := formatOf_of_boundsAt_none _ (opcodeOf w).isLt hop (Option.isNone_iff_eq_none.2 hb)
      simp [decode_eq, Option.isNone_iff_eq_none.1 hF, hop]

end Sys2Proof
end

section
/-! Executing an issued word (30_encoding.md R90, R96). -/

namespace Sys2Proof.Machine

/-- An unassigned opcode is an illegal command (30_encoding.md R95, R96). -/
theorem formatOf_unassigned : ∀ op < 256,
    op ∉ [0x00] ++ List.range' 0x10 10 ++ List.range' 0x20 14 ++ List.range' 0x30 13 ++ List.range' 0x40 7
      ++ List.range' 0x50 6 ++ List.range' 0x60 2 → (formatOf op).isNone := by
  decide +kernel

/-- With BUSY = 1 and no access before it completes, the command runs (30_encoding.md R90). -/
theorem step_of_running {s : State} {w : Word} (hrun : s.running = some w) (hno : NoOverlap s) :
    step s = runCommand w s := by
  rw [step, hrun]
  cases hin : s.inbox with
  | nil => rfl
  | cons x rest =>
    obtain ⟨x, o⟩ := x
    cases o with
    | true => exact absurd hin (hno x rest)
    | false => rfl

/-- A write to CMD of an idle core with HALT = 0 issues the word (30_encoding.md R90). -/
theorem writeCmd_of_idle {s : State} (w : Word) (hidle : s.running = none) (hhalt : s.halt = false) :
    writeCmd s w = { s with running := some w } := by
  rw [writeCmd, State.busy_eq_false hidle, hhalt]
  rfl

/-- Settles O5: the step is runCommand (step_of_running), which raises on a word that does not decode; no
word of an opcode that the table does not assign decodes. -/
theorem illegalWordRaisesIllegalCommand : Obligations.IllegalWordRaisesIllegalCommand := by
  constructor
  · intro s w e hrun hno he
    rw [step_of_running hrun hno, runCommand, he, State.raise, decide_eq_false nofun, Bool.or_false]
    rfl
  · intro w hop
    have hw : (w >>> 24).toNat = (opcodeOf w).toNat := by
      rw [opcodeOf_toNat, BitVec.toNat_ushiftRight, Nat.shiftRight_eq_div_pow]
      omega
    have hF := formatOf_unassigned _ (opcodeOf w).isLt (hw ▸ hop)
    exact ⟨_, by rw [decode_eq, Option.isNone_iff_eq_none.1 hF, Option.elim_none]⟩

/-- Settles O6: BUSY = 1 runs the word (step_of_running), an idle core issues a word written to CMD, and with nothing to
come it stays idle. -/
theorem stepRunsDecodedCommand : Obligations.StepRunsDecodedCommand := by
  refine ⟨fun s w i hrun hno hi => ?run, fun s w o rest hidle hhalt hin => ?issue, fun s hidle hin => ?idle⟩
  case run => rw [step_of_running hrun hno, runCommand, hi]
  case issue =>
    rw [step_write_of_idle hidle hin (by decide) (by decide), hostWrite, if_pos rfl]
    exact congrArg Host.Outcome.next (writeCmd_of_idle w hidle hhalt)
  case idle => rw [step, hidle, hin]

/-- Settles O1, by running the decoder on each of the closed words. -/
theorem sampleWordsDecode : Obligations.SampleWordsDecode := by
  unfold Obligations.SampleWordsDecode
  decide

end Sys2Proof.Machine
end

section
/-! The pseudo-instructions (30_encoding.md R101). -/

namespace Sys2Proof.Machine

open Sys2Proof.Config (prime)

/-! Negation and conjugation undo themselves on canonical values, and EMUL's short formula is the product. -/

/-- A canonical element is known by its residue. -/
theorem eq_of_cast {a b : Fe} (ha : FeCanonical a) (hb : FeCanonical b) (h : (a.toNat : ZMod prime) = b.toNat) :
    a = b :=
  BitVec.eq_of_toNat_eq (Nat.ModEq.eq_of_lt_of_lt ((ZMod.natCast_eq_natCast_iff _ _ _).1 h) ha hb)

theorem fneg_fneg {a : Fe} (ha : FeCanonical a) : fneg (fneg a) = a :=
  eq_of_cast (fneg_canonical _) ha (by rw [fneg_cast, fneg_cast, neg_neg])

theorem eneg_eneg {u : Fe2} (hu : Fe2Canonical u) : eneg (eneg u) = u := by
  rw [eneg, eneg, fneg_fneg hu.1, fneg_fneg hu.2]

theorem econj_econj {u : Fe2} (hu : Fe2Canonical u) : econj (econj u) = u := by
  rw [econj, econj, fneg_fneg hu.2]

theorem pneg_pneg {P : Point} (hP : PointCanonical P) : pneg (pneg P) = P := by
  obtain ⟨hX, -, -, hT⟩ := hP
  rw [pneg, pneg, eneg_eneg hX, eneg_eneg hT]

/-- The product with three multiplications is the product (42_extfield.md R143). -/
theorem emulKaratsuba_eq (u v : Fe2) : emulKaratsuba u v = emul u v := by
  have him : (emulKaratsuba u v).im = (emul u v).im := by
    refine eq_of_cast (fsub_canonical _ _) (fadd_canonical _ _) ?_
    simp only [emulKaratsuba, emul, fsub_cast, fadd_cast, fmul_cast]
    ring
  exact congrArg (Fe2.mk _) him

/-! Two commands in sequence. -/

theorem execAll_pair {i j : Instr} {s u t : State} (hi : exec i s = succeed u) (hj : exec j u.complete = succeed t) :
    execAll [i, j] s = .next t.complete := by
  rw [execAll_cons, hi, succeed, andThen_next, execAll_cons, hj, succeed, andThen_next, execAll_nil]

/-! The commands that the expansions use, by their outcome. -/

theorem exec_fneg (d a : FReg) (s : State) : exec (.fneg d a) s = succeed (s.wrF d (fneg (s.rdF a))) := rfl

theorem exec_econj (d a : EReg) (s : State) : exec (.econj d a) s = succeed (s.wrE d (econj (s.rdE a))) := rfl

theorem exec_pneg (d a : PReg) (s : State) : exec (.pneg d a) s = succeed (s.wrP d (pneg (s.rdP a))) := rfl

theorem exec_pid (d : PReg) (s : State) : exec (.pid d) s = succeed (s.wrP d Point.neutral) := rfl

theorem exec_peq (a b : PReg) (s : State) :
    exec (.peq a b) s = succeed (s.setFlag (sameAffine (s.rdP a) (s.rdP b))) :=
  rfl

theorem exec_emul (d a b : EReg) (s : State) : exec (.emul d a b) s = succeed (s.wrE d (emul (s.rdE a) (s.rdE b))) := by
  rw [exec, execEmul, emulKaratsuba_eq]

theorem exec_einv {b : EReg} {s : State} (d : EReg) (hb : s.rdE b ≠ ezero) :
    exec (.einv d b) s = succeed (s.wrE d (einv (s.rdE b))) := by
  rw [exec, execEinv, if_neg hb]

theorem exec_paffx {a : PReg} {s : State} (x : EReg) (hZ : (s.rdP a).Z ≠ ezero) :
    exec (.paffx x a) s = succeed (s.wrE x (affineX (s.rdP a))) := by
  rw [exec, execPaffx, if_neg hZ]

theorem exec_paffy {a : PReg} {s : State} (y : EReg) (hZ : (s.rdP a).Z ≠ ezero) :
    exec (.paffy y a) s = succeed (s.wrE y (affineY (s.rdP a))) := by
  rw [exec, execPaffy, if_neg hZ]

/-! A register written twice in a row holds the second value. -/

theorem State.wrF_complete_wrF (s : State) (d : FReg) (v w : Fe) :
    ((s.wrF d v).complete.wrF d w).complete = (s.wrF d w).complete := by
  simp [State.wrF, State.complete]

theorem State.wrE_complete_wrE (s : State) (d : EReg) (v w : Fe2) :
    ((s.wrE d v).complete.wrE d w).complete = (s.wrE d w).complete := by
  simp [State.wrE, State.complete]

theorem State.wrP_complete_wrP (s : State) (d : PReg) (v w : Point) :
    ((s.wrP d v).complete.wrP d w).complete = (s.wrP d w).complete := by
  simp [State.wrP, State.complete]

/-! The expansions. -/

section

variable {s : State}

theorem execAll_fmov {a : FReg} (h : FeCanonical (s.rdF a)) (d : FReg) :
    execAll (Pseudo.fmov d a).expand s = .next (s.wrF d (s.rdF a)).complete := by
  have hread : (s.wrF d (fneg (s.rdF a))).complete.rdF d = fneg (s.rdF a) := State.rdF_wrF_same s d _
  rw [Pseudo.expand, execAll_pair (exec_fneg d a s) (exec_fneg d d _), hread, fneg_fneg h,
    State.wrF_complete_wrF]

theorem execAll_emov {a : EReg} (h : Fe2Canonical (s.rdE a)) (d : EReg) :
    execAll (Pseudo.emov d a).expand s = .next (s.wrE d (s.rdE a)).complete := by
  have hread : (s.wrE d (econj (s.rdE a))).complete.rdE d = econj (s.rdE a) := State.rdE_wrE_same s d _
  rw [Pseudo.expand, execAll_pair (exec_econj d a s) (exec_econj d d _), hread, econj_econj h,
    State.wrE_complete_wrE]

theorem execAll_pmov {a : PReg} (h : PointCanonical (s.rdP a)) (d : PReg) :
    execAll (Pseudo.pmov d a).expand s = .next (s.wrP d (s.rdP a)).complete := by
  have hread : (s.wrP d (pneg (s.rdP a))).complete.rdP d = pneg (s.rdP a) := State.rdP_wrP_same s d _
  rw [Pseudo.expand, execAll_pair (exec_pneg d a s) (exec_pneg d d _), hread, pneg_pneg h,
    State.wrP_complete_wrP]

theorem execAll_pisid {a b : PReg} (hab : a ≠ b) :
    execAll (Pseudo.pisid a b).expand s
      = .next ((s.wrP b Point.neutral).setFlag (sameAffine (s.rdP a) Point.neutral)).complete := by
  have ha : (s.wrP b Point.neutral).complete.rdP a = s.rdP a := State.rdP_wrP_other s b a _ hab
  have hb : (s.wrP b Point.neutral).complete.rdP b = Point.neutral := State.rdP_wrP_same s b _
  rw [Pseudo.expand, execAll_pair (exec_pid b s) (exec_peq a b _), ha, hb]
  rfl

theorem execAll_paff (x y : EReg) {a : PReg} (hZ : (s.rdP a).Z ≠ ezero) :
    execAll (Pseudo.paff x y a).expand s
      = .next ((s.wrE x (affineX (s.rdP a))).wrE y (affineY (s.rdP a))).complete := by
  rw [Pseudo.expand, execAll_pair (exec_paffx x hZ) (exec_paffy (s := (s.wrE x (affineX (s.rdP a))).complete) y hZ)]
  rfl

theorem execAll_ediv {d a b : EReg} (hda : d ≠ a) (hb : s.rdE b ≠ ezero) :
    execAll (Pseudo.ediv d a b).expand s = .next (s.wrE d (emul (s.rdE a) (einv (s.rdE b)))).complete := by
  have hreada : (s.wrE d (einv (s.rdE b))).complete.rdE a = s.rdE a := State.rdE_wrE_other s d a _ hda.symm
  have hreadd : (s.wrE d (einv (s.rdE b))).complete.rdE d = einv (s.rdE b) := State.rdE_wrE_same s d _
  rw [Pseudo.expand, execAll_pair (exec_einv d hb) (exec_emul d a d _), hreada, hreadd, State.wrE_complete_wrE]

end

/-- Settles O58, an expansion each. -/
theorem pseudoInstructionsDoWhatTheirNotesSay : Obligations.PseudoInstructionsDoWhatTheirNotesSay := by
  rintro s ⟨hf, he, hp, -⟩
  refine ⟨?fmov, ?emov, ?pmov, ?pisid, ?paff, ?ediv⟩
  case fmov => exact fun d a => execAll_fmov (hf a) d
  case emov => exact fun d a => execAll_emov (he a) d
  case pmov => exact fun d a => execAll_pmov (hp a) d
  case pisid => exact fun a b hab => execAll_pisid hab
  case paff => exact fun x y a _ hZ => execAll_paff x y hZ
  case ediv => exact fun d a b hda hb => execAll_ediv hda hb

end Sys2Proof.Machine
end

section
/-! Words whose operands are F or E registers, and commands that write an F register or FLAG: their next states. -/

namespace Sys2Proof.Machine

/-- The number of a format R word whose fields fit (30_encoding.md R100). -/
theorem packR_toNat {op rd rs1 rs2 rs3 rs4 : Nat} (hop : op < 256) (hf : Fields.Fit ⟨rd, rs1, rs2, rs3, rs4⟩) :
    (packR op rd rs1 rs2 rs3 rs4).toNat = wordR op rd rs1 rs2 rs3 rs4 := by
  simp only [Fields.Fit, Fields.Below] at hf
  rw [packR, BitVec.toNat_ofNat]
  exact Nat.mod_eq_of_lt (by omega)

/-- The same for fields that are F or E register numbers; an unused field is register 0 (30_encoding.md R92). -/
theorem packR_regs_toNat {op : Nat} (hop : op < 256) (d a b : Fin 8) :
    (packR op d a b 0 0).toNat = wordR op d a b 0 0 := by
  refine packR_toNat hop ?_
  simp only [Fields.Fit, Fields.Below]
  omega

theorem succeed_wrF (s : State) (d : FReg) (v : Fe) :
    succeed (s.wrF d v) = .next { s with f := s.f.set d v, result := 0, running := none } := rfl

theorem succeed_setFlag (s : State) (b : Bool) :
    succeed (s.setFlag b) = .next { s with flag := b, result := 0, running := none } := rfl

theorem fail_recoverable {c : ErrorCode} (i : Instr) (s : State) (h : c ≠ .zeroInversion) :
    fail i c s = .next (raised s i c.code) := by
  rw [fail, State.raise_recoverable s c i h]

theorem fail_fatal (i : Instr) (s : State) : fail i .zeroInversion s = .next (raisedFatal s i) := by
  rw [fail, State.raise_fatal]

theorem State.lengthIs_eq_false_iff (s : State) (n : Nat) : s.lengthIs n = false ↔ s.blen.toNat ≠ n := by
  rw [← Bool.not_eq_true, State.lengthIs_iff]

theorem exec_fadd (d a b : FReg) (s : State) :
    exec (.fadd d a b) s = succeed (s.wrF d (fadd (s.rdF a) (s.rdF b))) := rfl

theorem exec_fsub (d a b : FReg) (s : State) :
    exec (.fsub d a b) s = succeed (s.wrF d (fsub (s.rdF a) (s.rdF b))) := rfl

theorem exec_fmul (d a b : FReg) (s : State) :
    exec (.fmul d a b) s = succeed (s.wrF d (fmul (s.rdF a) (s.rdF b))) := rfl

theorem exec_fsqr (d a : FReg) (s : State) :
    exec (.fsqr d a) s = succeed (s.wrF d (fmul (s.rdF a) (s.rdF a))) := rfl

theorem exec_finv_zero {a : FReg} {s : State} (d : FReg) (h : s.rdF a = 0) :
    exec (.finv d a) s = fail (.finv d a) .zeroInversion s := by
  rw [exec, execFinv, if_pos h]

theorem exec_finv {a : FReg} {s : State} (d : FReg) (h : s.rdF a ≠ 0) :
    exec (.finv d a) s = succeed (s.wrF d (finv (s.rdF a))) := by
  rw [exec, execFinv, if_neg h]

theorem exec_fisz (a : FReg) (s : State) : exec (.fisz a) s = succeed (s.setFlag (decide (s.rdF a = 0))) := rfl

theorem exec_feq (a b : FReg) (s : State) :
    exec (.feq a b) s = succeed (s.setFlag (decide (s.rdF a = s.rdF b))) := rfl

theorem exec_eisz (a : EReg) (s : State) : exec (.eisz a) s = succeed (s.setFlag (decide (s.rdE a = ezero))) := rfl

theorem exec_eeq (a b : EReg) (s : State) :
    exec (.eeq a b) s = succeed (s.setFlag (decide (s.rdE a = s.rdE b))) := rfl

end Sys2Proof.Machine
end

section
/-! The field predicates (41_primefield.md R127, R128, 42_extfield.md R148, R149). -/

namespace Sys2Proof.Machine

/-- An element of GF(p^2) is known by the numbers of its components. -/
theorem fe2_eq_iff (u v : Fe2) : u = v ↔ u.re.toNat = v.re.toNat ∧ u.im.toNat = v.im.toNat := by
  cases u
  cases v
  rw [Fe2.mk.injEq, BitVec.toNat_inj, BitVec.toNat_inj]

/-- Settles O27: equal registers are registers with equal numbers. -/
theorem fieldPredicatesSetFlag : Obligations.FieldPredicatesSetFlag := by
  intro s a b
  refine ⟨⟨packR_regs_toNat (by decide) 0 a 0, ?fisz⟩, ⟨packR_regs_toNat (by decide) 0 a b, ?feq⟩,
    ⟨packR_regs_toNat (by decide) 0 a 0, ?eisz⟩, ⟨packR_regs_toNat (by decide) 0 a b, ?eeq⟩⟩
  case fisz =>
    have hz : s.rdF a = 0 ↔ (s.rdF a).toNat = 0 := (BitVec.toNat_inj (y := 0)).symm
    rw [exec_fisz, decide_eq_decide.2 hz]
    exact succeed_setFlag s _
  case feq =>
    rw [exec_feq, decide_eq_decide.2 BitVec.toNat_inj.symm]
    exact succeed_setFlag s _
  case eisz =>
    rw [exec_eisz, decide_eq_decide.2 (fe2_eq_iff _ _)]
    exact succeed_setFlag s _
  case eeq =>
    rw [exec_eeq, decide_eq_decide.2 (fe2_eq_iff _ _)]
    exact succeed_setFlag s _

end Sys2Proof.Machine
end

section
/-! The reducer and the arithmetic of GF(p), exactly (41_primefield.md R120 to R125). -/

namespace Sys2Proof.Machine

open Sys2Proof.Config (prime)

/-- One carry is added in each of the reducer's two folds: the first sum is at most 2^128 - 2, so the second fits
127 bits (41_primefield.md R120). -/
theorem red_lt {z : Nat} (hz : z < 2 ^ 254) : red z < 2 ^ 127 := by
  have hfold : ∀ n : Nat, (n &&& prime) + (n >>> 127) = n % 2 ^ 127 + n / 2 ^ 127 := fun n => by
    rw [show n &&& prime = n % 2 ^ 127 from Nat.and_two_pow_sub_one_eq_mod n 127, Nat.shiftRight_eq_div_pow]
  simp only [red, hfold]
  split <;> omega

theorem red_eq_mod {z : Nat} (hz : z < 2 ^ 254) : red z = z % prime := by
  have hlt : red z < prime := lt_of_le_of_ne (Nat.le_sub_one_of_lt (red_lt hz)) (red_ne_prime z)
  exact (Nat.mod_eq_of_modEq (red_modEq z).symm hlt).symm

/-- Settles O24: the reducer keeps the residue (red_modEq), fits 127 bits (red_lt) and is never the pattern p
(red_ne_prime). -/
theorem reducerIsRemainder : Obligations.ReducerIsRemainder := fun _ hz => red_eq_mod hz

theorem fmul_toNat_eq_mod (a b : Fe) : (fmul a b).toNat = a.toNat * b.toNat % prime := by
  rw [fmul_toNat]
  have hlt : a.toNat * b.toNat < 2 ^ 127 * 2 ^ 127 := Nat.mul_lt_mul'' a.isLt b.isLt
  exact red_eq_mod hlt

theorem fsub_toNat_of_canonical {a b : Fe} (ha : FeCanonical a) (hb : FeCanonical b) :
    (fsub a b).toNat = if b.toNat ≤ a.toNat then a.toNat - b.toNat else a.toNat + prime - b.toNat := by
  rw [fsub_toNat, ← Nat.add_sub_assoc hb.le]
  split
  case isTrue hle =>
    rw [Nat.sub_add_comm hle, Nat.add_mod_right]
    exact Nat.mod_eq_of_lt ((Nat.sub_le _ _).trans_lt ha)
  case isFalse hlt => exact Nat.mod_eq_of_lt (by omega)

theorem fneg_toNat_eq_ite (a : Fe) :
    (fneg a).toNat = if a = 0 then 0 else prime - a.toNat := by
  rw [fneg_toNat]
  split
  case isTrue hzero =>
    rw [hzero]
    exact Nat.mod_self prime
  case isFalse hne =>
    have hpos : 0 < a.toNat := Nat.pos_of_ne_zero fun h => hne (BitVec.eq_of_toNat_eq h)
    exact Nat.mod_eq_of_lt (Nat.sub_lt prime_pos hpos)

/-- Settles O25: each command writes F[d] alone, and the value is the lemma about its field operation. -/
theorem primeFieldArithmeticIsExact : Obligations.PrimeFieldArithmeticIsExact := by
  intro s d a b
  refine ⟨⟨packR_regs_toNat (by decide) d a b, ?fadd⟩, fun ha hb => ⟨packR_regs_toNat (by decide) d a b, ?fsub⟩,
    ⟨packR_regs_toNat (by decide) d a b, ?fmul⟩, ⟨packR_regs_toNat (by decide) d a 0, ?fsqr⟩,
    fun _ => ⟨packR_regs_toNat (by decide) d a 0, ?fneg⟩⟩
  case fadd => exact ⟨_, fadd_toNat _ _, (exec_fadd d a b s).trans (succeed_wrF s d _)⟩
  case fsub => exact ⟨_, fsub_toNat_of_canonical ha hb, (exec_fsub d a b s).trans (succeed_wrF s d _)⟩
  case fmul => exact ⟨_, fmul_toNat_eq_mod _ _, (exec_fmul d a b s).trans (succeed_wrF s d _)⟩
  case fsqr =>
    exact ⟨_, fmul_toNat_eq_mod _ _, (exec_fsqr d a s).trans (succeed_wrF s d _),
      (exec_fsqr d a s).trans (exec_fmul d a a s).symm⟩
  case fneg => exact ⟨_, fneg_toNat_eq_ite _, (exec_fneg d a s).trans (succeed_wrF s d _)⟩

end Sys2Proof.Machine
end

section
/-! The inverse in GF(p), by Fermat's theorem (41_primefield.md R126). -/

namespace Sys2Proof.Machine

open Sys2Proof.Config (prime)

/-- Square and multiply computes the power, seen through any map into a monoid that takes mul to its product. -/
theorem powBy_map {α M : Type} [Monoid M] {mul : α → α → α} {one : α} (f : α → M) (hone : f one = 1)
    (hmul : ∀ x y, f (mul x y) = f x * f y) (a : α) {bits n : Nat} (hn : n < 2 ^ bits) :
    f (powBy mul one a bits n) = f a ^ n := by
  induction bits generalizing n with
  | zero =>
    obtain rfl : n = 0 := Nat.lt_one_iff.1 hn
    rw [pow_zero]
    exact hone
  | succ bits ih =>
    have hhalf : f (powBy mul one a bits (n / 2)) = f a ^ (n / 2) := ih (by omega)
    rw [powBy_succ]
    split
    case isTrue hodd => rw [hmul, hmul, hhalf, ← pow_add, ← pow_succ', show n / 2 + n / 2 + 1 = n by omega]
    case isFalse heven => rw [hmul, hhalf, ← pow_add, show n / 2 + n / 2 = n by omega]

theorem finv_cast (a : Fe) : ((finv a).toNat : ZMod prime) = (a.toNat : ZMod prime) ^ (prime - 2) :=
  powBy_map (fun x : Fe => (x.toNat : ZMod prime)) Nat.cast_one fmul_cast a (by decide)

/-- The residue of a canonical element other than 0 is not 0. -/
theorem cast_ne_zero {a : Fe} (ha : FeCanonical a) (h : a ≠ 0) : (a.toNat : ZMod prime) ≠ 0 :=
  fun h0 => h (eq_zero_of_cast ha h0)

theorem mul_finv_cast {a : Fe} (ha : FeCanonical a) (h : a ≠ 0) :
    (a.toNat : ZMod prime) * ((finv a).toNat : ZMod prime) = 1 := by
  have : Fact (Nat.Prime prime) := ⟨prime_isPrime⟩
  have hexp : prime - 2 + 1 = prime - 1 := by decide
  rw [finv_cast, ← pow_succ', hexp]
  exact ZMod.pow_card_sub_one_eq_one (cast_ne_zero ha h)

/-- A remainder 1 modulo p, in ZMod p. -/
theorem mul_mod_prime_eq_one_iff (m n : Nat) : m * n % prime = 1 ↔ (m : ZMod prime) * n = 1 := by
  have hone : 1 % prime = 1 := by decide
  rw [← Nat.cast_mul, ← Nat.cast_one (R := ZMod prime), ZMod.natCast_eq_natCast_iff, Nat.ModEq, hone]

theorem mul_finv_mod {a : Fe} (ha : FeCanonical a) (h : a ≠ 0) : a.toNat * (finv a).toNat % prime = 1 :=
  (mul_mod_prime_eq_one_iff _ _).2 (mul_finv_cast ha h)

theorem finv_toNat_pos {a : Fe} (ha : FeCanonical a) (h : a ≠ 0) : 1 ≤ (finv a).toNat := by
  refine Nat.pos_of_ne_zero fun h0 => ?_
  have hone := mul_finv_mod ha h
  rw [h0, Nat.mul_zero, Nat.zero_mod] at hone
  exact Nat.zero_ne_one hone

/-- A left inverse and a right inverse of one element are equal. -/
theorem finv_unique {a : Fe} (ha : FeCanonical a) (h : a ≠ 0) {u : Nat} (hu : u < prime)
    (hmul : a.toNat * u % prime = 1) : u = (finv a).toNat := by
  have hleft : ((finv a).toNat : ZMod prime) * a.toNat = 1 := (mul_comm _ _).trans (mul_finv_cast ha h)
  have hright : (a.toNat : ZMod prime) * u = 1 := (mul_mod_prime_eq_one_iff _ _).1 hmul
  have hmod : (finv a).toNat ≡ u [MOD prime] :=
    (ZMod.natCast_eq_natCast_iff _ _ _).1 (left_inv_eq_right_inv hleft hright)
  exact (hmod.eq_of_lt_of_lt (finv_canonical a) hu).symm

theorem finv_modEq_pow (a : Fe) : (finv a).toNat ≡ a.toNat ^ (prime - 2) [MOD prime] := by
  rw [← ZMod.natCast_eq_natCast_iff, Nat.cast_pow]
  exact finv_cast a

/-- Settles O26: the power a^(p-2) is the inverse (mul_finv_mod) and the only one below p (finv_unique). -/
theorem primeFieldInverse : Obligations.PrimeFieldInverse := by
  intro s d a
  refine ⟨packR_regs_toNat (by decide) d a 0, fun hzero => ?zero, fun ha hne => ?nonzero⟩
  case zero => exact (exec_finv_zero d hzero).trans (fail_fatal _ s)
  case nonzero =>
    exact ⟨_, (exec_finv d hne).trans (succeed_wrF s d _), finv_toNat_pos ha hne, finv_canonical _,
      mul_finv_mod ha hne, fun u hu hmul => finv_unique ha hne hu hmul, finv_modEq_pow _⟩

end Sys2Proof.Machine
end

section
/-! Byte strings in BUF: writing a register to it, reading it into one, and both in turn (41_primefield.md R129, R130,
R133, 42_extfield.md R155). -/

namespace Sys2Proof.Machine

open Sys2Proof.Config (prime)

/-! The strings in memory. -/

/-- MemRead of n + k bytes is MemRead of the first n and of the k that follow (20_memory.md R61). -/
theorem Memory.readLE_add (m : Memory) (a n k : Nat) :
    Memory.readLE m a (n + k) = Memory.readLE m a n + 256 ^ n * Memory.readLE m (a + n) k := by
  simp only [Memory.readLE_eq_sum, memValue, Finset.sum_range_add, Finset.mul_sum, Nat.add_assoc, pow_add,
    Nat.mul_left_comm]

/-- Writing back what was read changes no byte. -/
theorem Memory.read_writeLE_readLE (m : Memory) (a n a' : Nat) :
    Memory.read (Memory.writeLE m a n (Memory.readLE m a n)) a' = Memory.read m a' := by
  by_cases h : a ≤ a' ∧ a' < a + n
  · obtain ⟨k, rfl⟩ := Nat.exists_eq_add_of_le h.1
    have hk : k < n := by omega
    rw [Memory.read_writeLE_inside m a n _ k hk, Memory.readLE_byte m hk]
  · exact Memory.read_writeLE_outside m a n _ a' (by omega)

/-! The commands, by their outcome. -/

theorem exec_ftob (a : FReg) (s : State) : exec (.ftob a) s = succeed (s.putString 16 (feBytes (s.rdF a))) := rfl

theorem exec_etob (a : EReg) (s : State) : exec (.etob a) s = succeed (s.putString 32 (fe2Bytes (s.rdE a))) := rfl

theorem exec_ktob (a : KReg) (s : State) : exec (.ktob a) s = succeed (s.putString 32 (s.rdK a).toNat) := rfl

theorem succeed_putString (s : State) (n v : Nat) :
    succeed (s.putString n v)
      = .next { s with buf := (s.putString n v).buf, blen := BitVec.ofNat 8 n, result := 0, running := none } := rfl

theorem exec_ffromb_length (d : FReg) {s : State} (h : s.blen.toNat ≠ 16) :
    exec (.ffromb d) s = fail (.ffromb d) .invalidEncodingLength s := by
  rw [exec, execFfromb, if_pos ((s.lengthIs_eq_false_iff 16).2 h)]

theorem exec_ffromb_noncanonical (d : FReg) {s : State} (h : s.blen.toNat = 16) (hp : prime ≤ s.getString 0 16) :
    exec (.ffromb d) s = fail (.ffromb d) .invalidFieldEncoding s := by
  rw [exec, execFfromb, if_neg (mt (s.lengthIs_eq_false_iff 16).1 (not_not_intro h)), if_pos hp]

theorem exec_ffromb (d : FReg) {s : State} (h : s.blen.toNat = 16) (hp : s.getString 0 16 < prime) :
    exec (.ffromb d) s = succeed (s.wrF d (BitVec.ofNat 127 (s.getString 0 16))) := by
  rw [exec, execFfromb, if_neg (mt (s.lengthIs_eq_false_iff 16).1 (not_not_intro h)), if_neg (Nat.not_le.2 hp)]

theorem exec_efromb (d : EReg) {s : State} (h : s.blen.toNat = 32) (hre : s.getString 0 16 < prime)
    (him : s.getString 16 16 < prime) :
    exec (.efromb d) s
      = succeed (s.wrE d ⟨BitVec.ofNat 127 (s.getString 0 16), BitVec.ofNat 127 (s.getString 16 16)⟩) := by
  rw [exec, execEfromb, if_neg (mt (s.lengthIs_eq_false_iff 32).1 (not_not_intro h)),
    if_neg (not_or.2 ⟨Nat.not_le.2 hre, Nat.not_le.2 him⟩)]

theorem exec_kfromb (d : KReg) {s : State} (h : s.blen.toNat = 32) :
    exec (.kfromb d) s = succeed (s.wrK d (BitVec.ofNat 256 (s.getString 0 32))) := by
  rw [exec, execKfromb, if_neg (mt (s.lengthIs_eq_false_iff 32).1 (not_not_intro h))]

/-- Settles O28: FTOB is a putString of 16 bytes. -/
theorem fieldElementToBytes : Obligations.FieldElementToBytes := by
  intro s a
  exact ⟨packR_regs_toNat (by decide) 0 a 0, _, (exec_ftob a s).trans (succeed_putString s 16 _),
    State.putString_wrote s 16 _⟩

/-- Settles O29: the length first, then the value, as execFfromb's branches stand. -/
theorem fieldElementFromBytes : Obligations.FieldElementFromBytes := by
  intro s d
  refine ⟨packR_regs_toNat (by decide) d 0 0, fun hlen => ?length, fun hlen hp => ?noncanonical,
    fun hlen hp => ?canonical⟩
  case length =>
    have hlen' : s.blen.toNat ≠ 16 := fun h => hlen (BitVec.eq_of_toNat_eq h)
    exact (exec_ffromb_length d hlen').trans (fail_recoverable _ s (by decide))
  case noncanonical =>
    rw [← State.getString_eq] at hp
    exact (exec_ffromb_noncanonical d (congrArg BitVec.toNat hlen) hp).trans (fail_recoverable _ s (by decide))
  case canonical =>
    rw [← State.getString_eq] at hp ⊢
    exact ⟨_, toNat_ofNat_lt_prime hp, (exec_ffromb d (congrArg BitVec.toNat hlen) hp).trans (succeed_wrF s d _)⟩

/-! Reading a string and writing it again. -/

/-- The command i reads a string into a register, j writes it to BUF again: BLEN and every byte are as before. -/
abbrev RoundTrip (i j : Instr) (s : State) : Prop :=
  ∃ t u, exec i s = .next t ∧ exec j t = .next u ∧ u.blen = s.blen ∧ u.result = 0
    ∧ ∀ a, Memory.read u.buf a = Memory.read s.buf a

/-- What a round trip rests on: i leaves BUF alone, and j writes the number that the string denotes. -/
theorem roundTrip_of_putString {i j : Instr} {s w : State} {n : Nat} (hlen : s.blen = BitVec.ofNat 8 n)
    (hi : exec i s = succeed w) (hbuf : w.buf = s.buf)
    (hj : exec j w.complete = succeed (w.complete.putString n (s.getString 0 n))) : RoundTrip i j s := by
  refine ⟨_, _, hi, hj, hlen.symm, rfl, fun a => ?_⟩
  rw [State.complete_buf, State.putString_buf, State.complete_buf, hbuf]
  exact Memory.read_writeLE_readLE s.buf 0 n a

/-- The bytes of two components are the 32 bytes of the string (20_memory.md R61). -/
theorem fe2Bytes_of_halves (s : State) (hre : s.getString 0 16 < prime) (him : s.getString 16 16 < prime) :
    fe2Bytes ⟨BitVec.ofNat 127 (s.getString 0 16), BitVec.ofNat 127 (s.getString 16 16)⟩ = s.getString 0 32 := by
  rw [fe2Bytes, toNat_ofNat_lt_prime hre, toNat_ofNat_lt_prime him]
  exact (Memory.readLE_add s.buf 0 16 16).symm

theorem roundTrip_field (d : FReg) {s : State} (hlen : s.blen = 16) (hp : s.getString 0 16 < prime) :
    RoundTrip (.ffromb d) (.ftob d) s := by
  refine roundTrip_of_putString hlen (exec_ffromb d (congrArg BitVec.toNat hlen) hp) rfl ?_
  have hread : (s.wrF d (BitVec.ofNat 127 (s.getString 0 16))).complete.rdF d = _ := State.rdF_wrF_same s d _
  rw [exec_ftob, hread, feBytes, toNat_ofNat_lt_prime hp]

theorem roundTrip_ext (d : EReg) {s : State} (hlen : s.blen = 32) (hre : s.getString 0 16 < prime)
    (him : s.getString 16 16 < prime) : RoundTrip (.efromb d) (.etob d) s := by
  refine roundTrip_of_putString hlen (exec_efromb d (congrArg BitVec.toNat hlen) hre him) rfl ?_
  have hread : (s.wrE d ⟨BitVec.ofNat 127 (s.getString 0 16), BitVec.ofNat 127 (s.getString 16 16)⟩).complete.rdE d
      = _ := State.rdE_wrE_same s d _
  rw [exec_etob, hread, fe2Bytes_of_halves s hre him]

theorem roundTrip_scalar (d : KReg) {s : State} (hlen : s.blen = 32) : RoundTrip (.kfromb d) (.ktob d) s := by
  refine roundTrip_of_putString hlen (exec_kfromb d (congrArg BitVec.toNat hlen)) rfl ?_
  have hread : (s.wrK d (BitVec.ofNat 256 (s.getString 0 32))).complete.rdK d = _ := State.rdK_wrK_same s d _
  have hlt : s.getString 0 32 < 2 ^ 256 := Memory.readLE_lt s.buf 0 32
  rw [exec_ktob, hread, BitVec.toNat_ofNat, Nat.mod_eq_of_lt hlt]

/-- Settles O30, a pair of commands each. -/
theorem byteRoundTripsReproduceTheString : Obligations.ByteRoundTripsReproduceTheString := by
  refine ⟨fun s d hlen hp => ?field, fun s d hlen hre him => ?ext, fun s d hlen => ?scalar⟩
  case field =>
    rw [← State.getString_eq] at hp
    exact roundTrip_field d hlen hp
  case ext =>
    rw [← State.getString_eq] at hre him
    exact roundTrip_ext d hlen hre him
  case scalar => exact roundTrip_scalar d hlen

end Sys2Proof.Machine
end

section
/-! The arithmetic of GF(p^2), exactly (42_extfield.md R141 to R147, R152 to R154). -/

namespace Sys2Proof.Machine

open Sys2Proof.Config (prime)

/-! From a residue in ZMod p to the remainder of an integer. -/

/-- A canonical element is the remainder of every integer that has its residue. -/
theorem toNat_eq_emod_of_cast {a : Fe} {z : Int} (ha : FeCanonical a) (h : (a.toNat : ZMod prime) = z) :
    (a.toNat : Int) = z % prime := by
  have hmod : (a.toNat : Int) ≡ z [ZMOD prime] := (ZMod.intCast_eq_intCast_iff _ _ _).1 (by rw [← h, Int.cast_natCast])
  have hself : (a.toNat : Int) % prime = a.toNat := Int.emod_eq_of_lt (Int.natCast_nonneg _) (Int.ofNat_lt.2 ha)
  exact hself.symm.trans hmod

theorem fsub_toNat_int (a b : Fe) : ((fsub a b).toNat : Int) = ((a.toNat : Int) - b.toNat) % prime :=
  toNat_eq_emod_of_cast (fsub_canonical a b) (by rw [fsub_cast]; push_cast; rfl)

theorem fneg_toNat_int (a : Fe) : ((fneg a).toNat : Int) = (-(a.toNat : Int)) % prime :=
  toNat_eq_emod_of_cast (fneg_canonical a) (by rw [fneg_cast]; push_cast; rfl)

/-! The product: i^2 = -1 (42_extfield.md R140). -/

theorem emul_re_toNat (u v : Fe2) :
    ((emul u v).re.toNat : Int) = ((u.re.toNat : Int) * v.re.toNat - (u.im.toNat : Int) * v.im.toNat) % prime := by
  refine toNat_eq_emod_of_cast (emul_canonical u v).1 ?_
  rw [emul, fsub_cast, fmul_cast, fmul_cast]
  push_cast
  rfl

theorem emul_im_toNat (u v : Fe2) :
    (emul u v).im.toNat = (u.re.toNat * v.im.toNat + u.im.toNat * v.re.toNat) % prime := by
  rw [emul, fadd_toNat, fmul_toNat_eq_mod, fmul_toNat_eq_mod, ← Nat.add_mod]

/-- The square with two multiplications is the product (42_extfield.md R144). -/
theorem esqrTwo_eq (u : Fe2) : esqrTwo u = emul u u := by
  have hre : (esqrTwo u).re = (emul u u).re := by
    refine eq_of_cast (fmul_canonical _ _) (fsub_canonical _ _) ?_
    simp only [esqrTwo, emul, fmul_cast, fadd_cast, fsub_cast]
    ring
  have him : (esqrTwo u).im = (emul u u).im := by
    refine eq_of_cast (fmul_canonical _ _) (fadd_canonical _ _) ?_
    simp only [esqrTwo, emul, fmul_cast, fadd_cast]
    ring
  exact congrArg₂ Fe2.mk hre him

/-! The inverse. -/

theorem enorm_canonical (u : Fe2) : FeCanonical (enorm u) := fadd_canonical _ _

theorem enorm_cast (u : Fe2) : ((enorm u).toNat : ZMod prime) = u.re.toNat ^ 2 + u.im.toNat ^ 2 := by
  rw [enorm, fadd_cast, fmul_cast, fmul_cast, sq, sq]

/-- As p = 3 modulo 4, -1 is no square, and a^2 + b^2 = 0 only for a = b = 0. -/
theorem enorm_ne_zero {u : Fe2} (hu : Fe2Canonical u) (h : u ≠ ezero) : enorm u ≠ 0 := by
  intro hnorm
  have : Fact (Nat.Prime prime) := ⟨prime_isPrime⟩
  have hsum : (u.re.toNat : ZMod prime) ^ 2 + (u.im.toNat : ZMod prime) ^ 2 = 0 := by
    rw [← enorm_cast, hnorm]
    exact Nat.cast_zero
  have him : (u.im.toNat : ZMod prime) = 0 := by
    by_contra hne
    exact ZMod.mod_four_ne_three_of_sq_eq_neg_sq' hne (eq_neg_of_add_eq_zero_left hsum) (by decide)
  have hre : (u.re.toNat : ZMod prime) = 0 := by
    rw [him, zero_pow two_ne_zero, add_zero] at hsum
    exact (pow_eq_zero_iff two_ne_zero).1 hsum
  exact h (congrArg₂ Fe2.mk (eq_zero_of_cast hu.1 hre) (eq_zero_of_cast hu.2 him))

/-- (a + bi)(a - bi) is the norm, so dividing a - bi by the norm inverts a + bi (42_extfield.md R146). -/
theorem emul_einv {u : Fe2} (hu : Fe2Canonical u) (h : u ≠ ezero) : emul u (einv u) = eone := by
  have hnorm := mul_finv_cast (enorm_canonical u) (enorm_ne_zero hu h)
  rw [enorm_cast] at hnorm
  have hre : (emul u (einv u)).re = 1 := by
    refine eq_of_cast (fsub_canonical _ _) (by decide) ?_
    simp only [emul, einv, fsub_cast, fmul_cast, fneg_cast]
    calc _ = ((u.re.toNat : ZMod prime) ^ 2 + u.im.toNat ^ 2) * (finv (enorm u)).toNat := by ring
      _ = 1 := hnorm
      _ = ((1 : Fe).toNat : ZMod prime) := Nat.cast_one.symm
  have him : (emul u (einv u)).im = 0 := by
    refine eq_zero_of_cast (fadd_canonical _ _) ?_
    simp only [emul, einv, fadd_cast, fmul_cast, fneg_cast]
    ring
  exact congrArg₂ Fe2.mk hre him

/-! The commands, by their outcome. -/

theorem succeed_wrE (s : State) (d : EReg) (v : Fe2) :
    succeed (s.wrE d v) = .next { s with e := s.e.set d v, result := 0, running := none } := rfl

theorem exec_eadd (d a b : EReg) (s : State) :
    exec (.eadd d a b) s = succeed (s.wrE d (eadd (s.rdE a) (s.rdE b))) := rfl

theorem exec_esub (d a b : EReg) (s : State) :
    exec (.esub d a b) s = succeed (s.wrE d (esub (s.rdE a) (s.rdE b))) := rfl

theorem exec_eneg (d a : EReg) (s : State) : exec (.eneg d a) s = succeed (s.wrE d (eneg (s.rdE a))) := rfl

theorem exec_epack (d : EReg) (a b : FReg) (s : State) :
    exec (.epack d a b) s = succeed (s.wrE d ⟨s.rdF a, s.rdF b⟩) := rfl

theorem exec_ere (d : FReg) (a : EReg) (s : State) : exec (.ere d a) s = succeed (s.wrF d (s.rdE a).re) := rfl

theorem exec_eim (d : FReg) (a : EReg) (s : State) : exec (.eim d a) s = succeed (s.wrF d (s.rdE a).im) := rfl

theorem exec_esqr (d a : EReg) (s : State) :
    exec (.esqr d a) s = succeed (s.wrE d (emul (s.rdE a) (s.rdE a))) := by
  rw [exec, execEsqr, esqrTwo_eq]

theorem exec_einv_zero {a : EReg} {s : State} (d : EReg) (h : s.rdE a = ezero) :
    exec (.einv d a) s = fail (.einv d a) .zeroInversion s := by
  rw [exec, execEinv, if_pos h]

/-! The statements. -/

/-- Settles O31: each command writes one register, and each component is a field operation's value or a copy. -/
theorem extFieldLinearCommandsAreExact : Obligations.ExtFieldLinearCommandsAreExact := by
  intro s d a b
  refine ⟨⟨packR_regs_toNat (by decide) d a b, ?eadd⟩, ⟨packR_regs_toNat (by decide) d a b, ?esub⟩,
    ⟨packR_regs_toNat (by decide) d a 0, ?eneg⟩, ⟨packR_regs_toNat (by decide) d a 0, ?econj⟩,
    ⟨packR_regs_toNat (by decide) d a b, ?epack⟩, ⟨packR_regs_toNat (by decide) d a 0, ?ere⟩,
    ⟨packR_regs_toNat (by decide) d a 0, ?eim⟩⟩
  case eadd =>
    exact ⟨_, (exec_eadd d a b s).trans (succeed_wrE s d _), fadd_toNat _ _, fadd_toNat _ _⟩
  case esub =>
    exact ⟨_, (exec_esub d a b s).trans (succeed_wrE s d _), fsub_toNat_int _ _, fsub_toNat_int _ _⟩
  case eneg => exact ⟨_, (exec_eneg d a s).trans (succeed_wrE s d _), fneg_toNat_int _, fneg_toNat_int _⟩
  case econj => exact ⟨_, (exec_econj d a s).trans (succeed_wrE s d _), rfl, fneg_toNat_int _⟩
  case epack => exact (exec_epack d a b s).trans (succeed_wrE s d _)
  case ere => exact (exec_ere d a s).trans (succeed_wrF s d _)
  case eim => exact (exec_eim d a s).trans (succeed_wrF s d _)

/-- Settles O32: both short formulas are the product (emulKaratsuba_eq, esqrTwo_eq), whose components are exact. -/
theorem extFieldProductIsExact : Obligations.ExtFieldProductIsExact := by
  intro s d a b
  refine ⟨⟨packR_regs_toNat (by decide) d a b, ?emul⟩, packR_regs_toNat (by decide) d a 0, ?esqr, ?same⟩
  case emul =>
    exact ⟨_, (exec_emul d a b s).trans (succeed_wrE s d _), emul_re_toNat _ _, emul_im_toNat _ _, rfl⟩
  case esqr => exact (exec_esqr d a s).trans (succeed_wrE s d _)
  case same => exact (exec_esqr d a s).trans (exec_emul d a a s).symm

/-- Settles O33: the two remainders are the components of the product with the inverse, which is one (emul_einv). -/
theorem extFieldInverse : Obligations.ExtFieldInverse := by
  intro s d a
  refine ⟨packR_regs_toNat (by decide) d a 0, fun hzero => ?zero, fun hu hne => ?nonzero⟩
  case zero => exact (exec_einv_zero d hzero).trans (fail_fatal _ s)
  case nonzero =>
    refine ⟨_, (exec_einv d hne).trans (succeed_wrE s d _), einv_canonical _, ?re, ?im⟩
    case re => exact (emul_re_toNat _ _).symm.trans (congrArg (fun w : Fe2 => (w.re.toNat : Int)) (emul_einv hu hne))
    case im => exact (emul_im_toNat _ _).symm.trans (congrArg (fun w : Fe2 => w.im.toNat) (emul_einv hu hne))

end Sys2Proof.Machine
end

section
/-! The byte strings of GF(p^2) elements (42_extfield.md R150, R151). -/

namespace Sys2Proof.Machine

open Sys2Proof.Config (prime)

theorem exec_efromb_length (d : EReg) {s : State} (h : s.blen.toNat ≠ 32) :
    exec (.efromb d) s = fail (.efromb d) .invalidEncodingLength s := by
  rw [exec, execEfromb, if_pos ((s.lengthIs_eq_false_iff 32).2 h)]

theorem exec_efromb_noncanonical (d : EReg) {s : State} (h : s.blen.toNat = 32)
    (hp : prime ≤ s.getString 0 16 ∨ prime ≤ s.getString 16 16) :
    exec (.efromb d) s = fail (.efromb d) .invalidFieldEncoding s := by
  rw [exec, execEfromb, if_neg (mt (s.lengthIs_eq_false_iff 32).1 (not_not_intro h)), if_pos hp]

/-- Settles O34: ETOB is a putString of 32 bytes; EFROMB checks the length, then both halves, as execEfromb's branches
stand. -/
theorem extElementBytes : Obligations.ExtElementBytes := by
  refine ⟨fun s a => ⟨packR_regs_toNat (by decide) 0 a 0, ?etob⟩, fun s d => ⟨packR_regs_toNat (by decide) d 0 0,
    fun hlen => ?length, fun hlen hp => ?noncanonical, fun hlen hre him => ?canonical⟩⟩
  case etob => exact ⟨_, (exec_etob a s).trans (succeed_putString s 32 _), State.putString_wrote s 32 _⟩
  case length =>
    have hlen' : s.blen.toNat ≠ 32 := fun h => hlen (BitVec.eq_of_toNat_eq h)
    exact (exec_efromb_length d hlen').trans (fail_recoverable _ s (by decide))
  case noncanonical =>
    rw [← State.getString_eq, ← State.getString_eq] at hp
    exact (exec_efromb_noncanonical d (congrArg BitVec.toNat hlen) hp).trans (fail_recoverable _ s (by decide))
  case canonical =>
    rw [← State.getString_eq] at hre him
    rw [← State.getString_eq, ← State.getString_eq]
    exact ⟨⟨BitVec.ofNat 127 _, BitVec.ofNat 127 _⟩, toNat_ofNat_lt_prime hre, toNat_ofNat_lt_prime him,
      (exec_efromb d (congrArg BitVec.toNat hlen) hre him).trans (succeed_wrE s d _)⟩

end Sys2Proof.Machine
end

section
/-! GF(p^2) as a ring of Mathlib's: the values of the model's elements, and the operations on them (42_extfield.md
R140). An equation between canonical elements is an equation between their values, where ring can close it. -/

namespace Sys2Proof.Machine

open Sys2Proof.Config (prime)

/-- GF(p^2) = GF(p)[i]/(i^2 + 1). -/
abbrev GFp2 : Type := QuadraticAlgebra (ZMod prime) (-1) 0

/-- The value of an element. -/
def Fe2.val (u : Fe2) : GFp2 := ⟨(u.re.toNat : ZMod prime), (u.im.toNat : ZMod prime)⟩

@[simp] theorem val_eadd (u v : Fe2) : (eadd u v).val = u.val + v.val :=
  QuadraticAlgebra.ext (fadd_cast _ _) (fadd_cast _ _)

@[simp] theorem val_esub (u v : Fe2) : (esub u v).val = u.val - v.val :=
  QuadraticAlgebra.ext (fsub_cast _ _) (fsub_cast _ _)

@[simp] theorem val_eneg (u : Fe2) : (eneg u).val = -u.val :=
  QuadraticAlgebra.ext (fneg_cast _) (fneg_cast _)

@[simp] theorem val_emul (u v : Fe2) : (emul u v).val = u.val * v.val := by
  refine QuadraticAlgebra.ext ?re ?im
  case re =>
    simp only [Fe2.val, emul, fsub_cast, fmul_cast, QuadraticAlgebra.re_mul]
    ring
  case im =>
    simp only [Fe2.val, emul, fadd_cast, fmul_cast, QuadraticAlgebra.im_mul]
    ring

@[simp] theorem val_esq (u : Fe2) : (esq u).val = u.val ^ 2 := by rw [esq, val_emul, sq]

@[simp] theorem val_edouble (u : Fe2) : (edouble u).val = 2 * u.val := by rw [edouble, val_eadd, two_mul]

@[simp] theorem val_econj (u : Fe2) : (econj u).val = star u.val := by
  refine QuadraticAlgebra.ext ?re (fneg_cast _)
  simp [Fe2.val, econj]

@[simp] theorem val_ezero : ezero.val = 0 := QuadraticAlgebra.ext Nat.cast_zero Nat.cast_zero

@[simp] theorem val_eone : eone.val = 1 := QuadraticAlgebra.ext Nat.cast_one Nat.cast_zero

/-- A canonical element is known by its value. -/
theorem val_inj {u v : Fe2} (hu : Fe2Canonical u) (hv : Fe2Canonical v) : u.val = v.val ↔ u = v := by
  refine ⟨fun h => ?_, congrArg Fe2.val⟩
  obtain ⟨hre, him⟩ := QuadraticAlgebra.ext_iff.1 h
  exact congrArg₂ Fe2.mk (eq_of_cast hu.1 hv.1 hre) (eq_of_cast hu.2 hv.2 him)

theorem val_eq_zero_iff {u : Fe2} (hu : Fe2Canonical u) : u.val = 0 ↔ u = ezero := by
  rw [← val_ezero]
  exact val_inj hu ezero_canonical

/-- -1 is no square modulo p, so the norm a^2 + b^2 is 0 of 0 alone. -/
theorem norm_eq_zero_iff {z : GFp2} : QuadraticAlgebra.norm z = 0 ↔ z = 0 := by
  have : Fact (Nat.Prime prime) := ⟨prime_isPrime⟩
  have : Fact (∀ r : ZMod prime, r ^ 2 ≠ -1 + 0 * r) := ⟨fun r hr => by
    rw [zero_mul, add_zero] at hr
    exact ZMod.mod_four_ne_three_of_sq_eq_neg_one hr (by decide)⟩
  exact QuadraticAlgebra.norm_eq_zero_iff_eq_zero

theorem GFp2_isDomain : IsDomain GFp2 := by
  have : Fact (Nat.Prime prime) := ⟨prime_isPrime⟩
  have : NoZeroDivisors GFp2 := ⟨fun {a b} h => by
    rw [← norm_eq_zero_iff, map_mul, mul_eq_zero] at h
    exact h.imp norm_eq_zero_iff.1 norm_eq_zero_iff.1⟩
  exact NoZeroDivisors.to_isDomain GFp2

theorem GFp2_two_ne_zero : (2 : GFp2) ≠ 0 := by
  intro h
  have hre : ((2 : Nat) : ZMod prime) = 0 := congrArg QuadraticAlgebra.re h
  exact absurd (Nat.le_of_dvd (by decide) ((ZMod.natCast_eq_zero_iff _ _).1 hre)) (by decide)

/-- i is a square root of -1. -/
theorem GFp2_omega_mul_omega : (QuadraticAlgebra.omega : GFp2) * QuadraticAlgebra.omega = -1 := by
  rw [QuadraticAlgebra.omega_mul_omega_eq_mk]
  exact QuadraticAlgebra.ext rfl neg_zero.symm

/-- The norm of CURVE_D is no square modulo p, so CURVE_D is none in GF(p^2) (43_curvepoint.md R163). -/
theorem curveD_nonsquare {a b : GFp2} (h : curveD.val * a ^ 2 = b ^ 2) : a = 0 := by
  have : Fact (Nat.Prime prime) := ⟨prime_isPrime⟩
  have hnorm : QuadraticAlgebra.norm curveD.val = ((curveD.re.toNat ^ 2 + curveD.im.toNat ^ 2 : Int) : ZMod prime) := by
    rw [QuadraticAlgebra.norm_def, Fe2.val]
    push_cast
    ring
  have hjacobi : jacobiSym (curveD.re.toNat ^ 2 + curveD.im.toNat ^ 2 : Int) prime = -1 := by
    rw [show curveD.re.toNat = 0x00000000000000E40000000000000142 from rfl,
      show curveD.im.toNat = 0x5E472F846657E0FCB3821488F1FC0C8D from rfl, prime]
    norm_num
  by_contra ha
  have hna : QuadraticAlgebra.norm a ≠ 0 := mt norm_eq_zero_iff.1 ha
  refine ZMod.nonsquare_of_jacobiSym_eq_neg_one hjacobi ⟨QuadraticAlgebra.norm b / QuadraticAlgebra.norm a, ?_⟩
  have hmap := congrArg QuadraticAlgebra.norm h
  rw [map_mul, map_pow, map_pow] at hmap
  rw [← hnorm, ← sq, div_pow, eq_div_iff (pow_ne_zero 2 hna), hmap]

end Sys2Proof.Machine
end

section
/-! The twisted Edwards curve -x^2 + y^2 = 1 + d*x^2*y^2 over a domain: the addition law stays on the curve, and where
-1 is a square and d is none, its two denominators are never zero (43_curvepoint.md R160, R163). -/

namespace Sys2Proof.Machine.Edwards

variable {K : Type*} [CommRing K]

/-- (x, y) is on the curve of parameter d. -/
def OnCurve (d x y : K) : Prop := -x ^ 2 + y ^ 2 = 1 + d * x ^ 2 * y ^ 2

variable {d x1 y1 x2 y2 : K}

/-- With m = d*x1*x2*y1*y2, e = x1*y2 + y1*x2 and h = y1*y2 + x1*x2 the sum is (e/(1 + m), h/(1 - m)); this is the
curve equation of it, times the denominators' squares. -/
theorem onCurve_sum (h1 : OnCurve d x1 y1) (h2 : OnCurve d x2 y2) {m e h : K} (hm : m = d * (x1 * x2) * (y1 * y2))
    (he : e = x1 * y2 + y1 * x2) (hh : h = y1 * y2 + x1 * x2) :
    -(e * (1 - m)) ^ 2 + ((1 + m) * h) ^ 2 = ((1 - m) * (1 + m)) ^ 2 + d * (e * h) ^ 2 := by
  subst hm he hh
  rw [OnCurve] at h1 h2
  linear_combination
    ((y2 ^ 2 - x2 ^ 2) * (1 + (d * (x1 * x2) * (y1 * y2)) ^ 2)
        - d * (x2 * y2) ^ 2 * (y1 ^ 2 - x1 ^ 2 + (1 + d * (x1 * y1) ^ 2))) * h1
      + ((1 + d * (x1 * y1) ^ 2) * (1 + (d * (x1 * x2) * (y1 * y2)) ^ 2)
        - d * (x1 * y1) ^ 2 * (y2 ^ 2 - x2 ^ 2 + (1 + d * (x2 * y2) ^ 2))) * h2

/-- A zero denominator makes d times a square equal to a square, once for each root i of -1. -/
theorem d_mul_sq_of_denominator (h1 : OnCurve d x1 y1) (h2 : OnCurve d x2 y2) {m : K}
    (hm : m = d * (x1 * x2) * (y1 * y2)) (hm1 : m ^ 2 = 1) {i : K} (hi : i * i = -1) :
    d * (x1 * y1 * (i * x2 + y2)) ^ 2 = (i * m * x1 + y1) ^ 2 := by
  subst hm
  rw [OnCurve] at h1 h2
  linear_combination (d * x1 ^ 2 * y1 ^ 2) * h2 - h1 + (1 + x1 ^ 2) * hm1
    + (d * x1 ^ 2 * y1 ^ 2 * x2 ^ 2 - (d * (x1 * x2) * (y1 * y2)) ^ 2 * x1 ^ 2) * hi

/-- The addition law is complete: 1 - m^2 is the product of its denominators. -/
theorem denominators_ne_zero [IsDomain K] (htwo : (2 : K) ≠ 0) {i : K} (hi : i * i = -1)
    (hd : ∀ {a b : K}, d * a ^ 2 = b ^ 2 → a = 0) (h1 : OnCurve d x1 y1) (h2 : OnCurve d x2 y2) {m : K}
    (hm : m = d * (x1 * x2) * (y1 * y2)) : 1 + m ≠ 0 ∧ 1 - m ≠ 0 := by
  have hsq : m ^ 2 ≠ 1 := by
    intro hm1
    have hplus := hd (d_mul_sq_of_denominator h1 h2 hm hm1 hi)
    have hminus := hd (d_mul_sq_of_denominator h1 h2 hm hm1 (i := -i) (by rw [neg_mul_neg, hi]))
    have hzero : 2 * m = 0 := by
      rw [hm]
      linear_combination d * x2 * (hplus + hminus)
    rw [(mul_eq_zero.1 hzero).resolve_left htwo] at hm1
    exact zero_ne_one ((zero_pow two_ne_zero).symm.trans hm1)
  exact ⟨fun h => hsq (by linear_combination (m - 1) * h), fun h => hsq (by linear_combination -(1 + m) * h)⟩

end Sys2Proof.Machine.Edwards
end

section
/-! Points by the values of their coordinates: validity and ~ as equations, the affine point that a tuple holds, and
that scaling a tuple changes neither (43_curvepoint.md R160, R161, R166, R169). -/

namespace Sys2Proof.Machine

/-- The values of a point's coordinates. -/
@[ext] structure Tuple where
  X : GFp2
  Y : GFp2
  Z : GFp2
  T : GFp2

/-- The coordinates of P, as values. -/
def Point.val (P : Point) : Tuple := ⟨P.X.val, P.Y.val, P.Z.val, P.T.val⟩

@[simp] theorem Point.val_X (P : Point) : P.val.X = P.X.val := rfl
@[simp] theorem Point.val_Y (P : Point) : P.val.Y = P.Y.val := rfl
@[simp] theorem Point.val_Z (P : Point) : P.val.Z = P.Z.val := rfl
@[simp] theorem Point.val_T (P : Point) : P.val.T = P.T.val := rfl

theorem Point.val_inj {P Q : Point} (hP : PointCanonical P) (hQ : PointCanonical Q) : P.val = Q.val ↔ P = Q := by
  refine ⟨fun h => ?_, congrArg Point.val⟩
  obtain ⟨hX, hY, hZ, hT⟩ := hP
  obtain ⟨hX', hY', hZ', hT'⟩ := hQ
  obtain ⟨eX, eY, eZ, eT⟩ := Tuple.ext_iff.1 h
  cases P
  cases Q
  exact (Point.mk.injEq ..).mpr
    ⟨(Machine.val_inj hX hX').1 eX, (Machine.val_inj hY hY').1 eY, (Machine.val_inj hZ hZ').1 eZ,
      (Machine.val_inj hT hT').1 eT⟩

/-- (x, y) is an affine point of the curve. -/
abbrev OnCurve (x y : GFp2) : Prop := Edwards.OnCurve curveD.val x y

theorem affineOnCurve_iff (x y : Fe2) : affineOnCurve x y = true ↔ OnCurve x.val y.val := by
  rw [affineOnCurve, decide_eq_true_iff, ← val_inj (eadd_canonical _ _) (eadd_canonical _ _), OnCurve, Edwards.OnCurve]
  simp only [val_eadd, val_eneg, val_esq, val_eone, val_emul]

namespace Tuple

/-- (k*X, k*Y, k*Z, k*T). -/
def scale (k : GFp2) (t : Tuple) : Tuple := ⟨k * t.X, k * t.Y, k * t.Z, k * t.T⟩

/-- The tuple with Z = z of the affine pair (x, y). -/
def ofPair (x y z : GFp2) : Tuple := ⟨x * z, y * z, z, x * y * z⟩

/-- A valid curve point (10_state.md R28). -/
def Valid (t : Tuple) : Prop :=
  t.Z ≠ 0 ∧ t.X * t.Y = t.Z * t.T ∧ -t.X ^ 2 + t.Y ^ 2 = t.Z ^ 2 + curveD.val * t.T ^ 2

/-- t ~ u (43_curvepoint.md R169). -/
def Same (t u : Tuple) : Prop := t.X * u.Z = u.X * t.Z ∧ t.Y * u.Z = u.Y * t.Z

/-- An equation times k. -/
theorem eq_iff_of_mul {k a b a' b' : GFp2} (hk : k ≠ 0) (ha : a' = k * a) (hb : b' = k * b) : a' = b' ↔ a = b := by
  have := GFp2_isDomain
  rw [ha, hb, mul_right_inj' hk]

theorem scale_valid_iff {k : GFp2} (hk : k ≠ 0) (t : Tuple) : (t.scale k).Valid ↔ t.Valid := by
  have := GFp2_isDomain
  have hk2 : k ^ 2 ≠ 0 := pow_ne_zero 2 hk
  have hZ : k * t.Z ≠ 0 ↔ t.Z ≠ 0 := by rw [mul_ne_zero_iff, and_iff_right hk]
  refine and_congr hZ (and_congr (eq_iff_of_mul hk2 ?_ ?_) (eq_iff_of_mul hk2 ?_ ?_)) <;>
  · simp only [scale]
    ring

theorem scale_same_scale_iff {k l : GFp2} (hk : k ≠ 0) (hl : l ≠ 0) (t u : Tuple) :
    (t.scale k).Same (u.scale l) ↔ t.Same u := by
  have := GFp2_isDomain
  have hkl : k * l ≠ 0 := mul_ne_zero hk hl
  refine and_congr (eq_iff_of_mul hkl ?_ ?_) (eq_iff_of_mul hkl ?_ ?_) <;>
  · simp only [scale]
    ring

theorem same_scale (k : GFp2) (t : Tuple) : t.Same (t.scale k) := by
  simp only [Same, scale]
  constructor <;> ring

theorem ofPair_valid_iff {z : GFp2} (hz : z ≠ 0) (x y : GFp2) : (ofPair x y z).Valid ↔ OnCurve x y := by
  have := GFp2_isDomain
  simp only [Valid, ofPair]
  rw [and_iff_right hz, and_iff_right (by ring)]
  exact eq_iff_of_mul (pow_ne_zero 2 hz) (by ring) (by ring)

end Tuple

theorem pvalid_iff {P : Point} (hZ : Fe2Canonical P.Z) : pvalid P = true ↔ P.val.Valid := by
  rw [pvalid, Bool.and_eq_true, Bool.and_eq_true, decide_eq_true_iff, decide_eq_true_iff, decide_eq_true_iff, Ne,
    ← val_eq_zero_iff hZ, ← val_inj (emul_canonical _ _) (emul_canonical _ _),
    ← val_inj (eadd_canonical _ _) (eadd_canonical _ _), and_assoc]
  simp only [Tuple.Valid, val_emul, val_eadd, val_eneg, val_esq, Point.val_X, Point.val_Y, Point.val_Z, Point.val_T]

theorem sameAffine_iff (P Q : Point) : sameAffine P Q = true ↔ P.val.Same Q.val := by
  rw [sameAffine, Bool.and_eq_true, decide_eq_true_iff, decide_eq_true_iff,
    ← val_inj (emul_canonical _ _) (emul_canonical _ _), ← val_inj (emul_canonical _ _) (emul_canonical _ _)]
  simp only [Tuple.Same, val_emul, Point.val_X, Point.val_Y, Point.val_Z]

theorem goodPoint_iff {P : Point} (hP : PointCanonical P) : GoodPoint P ↔ P.val.Valid :=
  (and_iff_right hP).trans (pvalid_iff hP.2.2.1)

theorem GoodPoint.valid {P : Point} (hP : GoodPoint P) : P.val.Valid := (goodPoint_iff hP.1).1 hP

theorem scalePoint_val (c : Fe2) (P : Point) : (scalePoint c P).val = P.val.scale c.val := by
  simp only [Point.val, scalePoint, val_emul, Tuple.scale]

theorem scalePoint_canonical (c : Fe2) (P : Point) : PointCanonical (scalePoint c P) :=
  ⟨emul_canonical _ _, emul_canonical _ _, emul_canonical _ _, emul_canonical _ _⟩

theorem ofAffine_val (x y : Fe2) : (ofAffine x y).val = .ofPair x.val y.val 1 := by
  simp only [Point.val, ofAffine, val_eone, val_emul, Tuple.ofPair, mul_one]

theorem ofAffine_good_iff {x y : Fe2} (hx : Fe2Canonical x) (hy : Fe2Canonical y) :
    GoodPoint (ofAffine x y) ↔ affineOnCurve x y = true := by
  have := GFp2_isDomain
  rw [goodPoint_iff (ofAffine_canonical hx hy), ofAffine_val, Tuple.ofPair_valid_iff one_ne_zero, affineOnCurve_iff]

/-! The affine coordinates (43_curvepoint.md R167, R168). -/

/-- Dividing by Z and multiplying by it. -/
theorem mul_einv_mul {u z : Fe2} (hz : Fe2Canonical z) (hne : z ≠ ezero) :
    (emul u (einv z)).val * z.val = u.val := by
  have hinv := congrArg Fe2.val (emul_einv hz hne)
  rw [val_emul, val_eone] at hinv
  rw [val_emul]
  linear_combination u.val * hinv

section

variable {P Q : Point}

theorem affineX_mul (hZ : Fe2Canonical P.Z) (hne : P.Z ≠ ezero) : (affineX P).val * P.Z.val = P.X.val :=
  mul_einv_mul hZ hne

theorem affineY_mul (hZ : Fe2Canonical P.Z) (hne : P.Z ≠ ezero) : (affineY P).val * P.Z.val = P.Y.val :=
  mul_einv_mul hZ hne

/-- The affine coordinates are the only pair with x*Z = X and y*Z = Y. -/
theorem affine_unique (hZ : Fe2Canonical P.Z) (hne : P.Z ≠ ezero) {x y : GFp2} (hx : x * P.Z.val = P.X.val)
    (hy : y * P.Z.val = P.Y.val) : (affineX P).val = x ∧ (affineY P).val = y := by
  have := GFp2_isDomain
  have hz : P.Z.val ≠ 0 := mt (val_eq_zero_iff hZ).1 hne
  exact ⟨mul_right_cancel₀ hz ((affineX_mul hZ hne).trans hx.symm),
    mul_right_cancel₀ hz ((affineY_mul hZ hne).trans hy.symm)⟩

theorem GoodPoint.Z_val_ne_zero (hP : GoodPoint P) : P.Z.val ≠ 0 := hP.valid.1

theorem GoodPoint.Z_ne_ezero (hP : GoodPoint P) : P.Z ≠ ezero :=
  mt (val_eq_zero_iff hP.1.2.2.1).2 hP.Z_val_ne_zero

/-- A valid point holds the tuple of its affine coordinates: T = x*y*Z follows from X*Y = Z*T. -/
theorem GoodPoint.val_eq (hP : GoodPoint P) : P.val = .ofPair (affineX P).val (affineY P).val P.Z.val := by
  have := GFp2_isDomain
  have hx := affineX_mul hP.1.2.2.1 hP.Z_ne_ezero
  have hy := affineY_mul hP.1.2.2.1 hP.Z_ne_ezero
  obtain ⟨hz, hXY, -⟩ := hP.valid
  refine Tuple.ext hx.symm hy.symm rfl (mul_left_cancel₀ hz (hXY.symm.trans ?_))
  simp only [Tuple.ofPair, Point.val_X, Point.val_Y, Point.val_Z, ← hx, ← hy]
  ring

theorem GoodPoint.onCurve (hP : GoodPoint P) : OnCurve (affineX P).val (affineY P).val := by
  have h := hP.valid
  rwa [hP.val_eq, Tuple.ofPair_valid_iff hP.Z_val_ne_zero] at h

/-! Scaled tuples. -/

theorem scaled_Z_ne_ezero {k : GFp2} (hk : k ≠ 0) (h : Q.val = P.val.scale k) (hP : Fe2Canonical P.Z)
    (hne : P.Z ≠ ezero) : Q.Z ≠ ezero := by
  have := GFp2_isDomain
  intro hQ
  have hzero : k * P.Z.val = 0 := by
    rw [← val_ezero, ← hQ]
    exact (congrArg Tuple.Z h).symm
  exact hne ((val_eq_zero_iff hP).1 ((mul_eq_zero.1 hzero).resolve_left hk))

end

end Sys2Proof.Machine
end

section
/-! The group law on valid points: what the formulas of PADD, PDBL and PNEG give (43_curvepoint.md R163 to R165). -/

namespace Sys2Proof.Machine

variable {P Q : Point}

/-- PADD of two affine pairs, up to the factor 2*Z1*Z2 of each of the formula's E, F, G and H. -/
def sumTuple (x1 y1 x2 y2 : GFp2) : Tuple :=
  let m := curveD.val * (x1 * x2) * (y1 * y2)
  let e := x1 * y2 + y1 * x2
  let h := y1 * y2 + x1 * x2
  ⟨e * (1 - m), (1 + m) * h, (1 - m) * (1 + m), e * h⟩

theorem padd_val {x1 y1 z1 x2 y2 z2 : GFp2} (hP : P.val = .ofPair x1 y1 z1) (hQ : Q.val = .ofPair x2 y2 z2) :
    (padd P Q).val = (sumTuple x1 y1 x2 y2).scale ((2 * (z1 * z2)) ^ 2) := by
  obtain ⟨hX, hY, hZ, hT⟩ := Tuple.ext_iff.1 hP
  obtain ⟨hX', hY', hZ', hT'⟩ := Tuple.ext_iff.1 hQ
  simp only [Tuple.ofPair, Point.val_X, Point.val_Y, Point.val_Z, Point.val_T] at hX hY hZ hT hX' hY' hZ' hT'
  refine Tuple.ext ?_ ?_ ?_ ?_ <;>
  · simp only [padd, Point.val, val_emul, val_esub, val_eadd, val_edouble, Tuple.scale, sumTuple, hX, hY, hZ, hT, hX',
      hY', hZ', hT']
    ring

theorem GoodPoint.denominators_ne_zero (hP : GoodPoint P) (hQ : GoodPoint Q) {m : GFp2}
    (hm : m = curveD.val * ((affineX P).val * (affineX Q).val) * ((affineY P).val * (affineY Q).val)) :
    1 + m ≠ 0 ∧ 1 - m ≠ 0 := by
  have := GFp2_isDomain
  exact Edwards.denominators_ne_zero GFp2_two_ne_zero GFp2_omega_mul_omega curveD_nonsquare hP.onCurve hQ.onCurve hm

/-- PADD of valid points (43_curvepoint.md R163). -/
theorem GoodPoint.padd_val (hP : GoodPoint P) (hQ : GoodPoint Q) :
    ∃ k ≠ 0, (padd P Q).val
      = (sumTuple (affineX P).val (affineY P).val (affineX Q).val (affineY Q).val).scale k := by
  have := GFp2_isDomain
  refine ⟨_, ?_, Machine.padd_val hP.val_eq hQ.val_eq⟩
  exact pow_ne_zero 2 (mul_ne_zero GFp2_two_ne_zero (mul_ne_zero hP.Z_val_ne_zero hQ.Z_val_ne_zero))

theorem sumTuple_valid (hP : GoodPoint P) (hQ : GoodPoint Q) :
    (sumTuple (affineX P).val (affineY P).val (affineX Q).val (affineY Q).val).Valid := by
  have := GFp2_isDomain
  obtain ⟨hplus, hminus⟩ := hP.denominators_ne_zero hQ rfl
  refine ⟨mul_ne_zero hminus hplus, ?_, Edwards.onCurve_sum hP.onCurve hQ.onCurve rfl rfl rfl⟩
  simp only [sumTuple]
  ring

theorem GoodPoint.padd (hP : GoodPoint P) (hQ : GoodPoint Q) : GoodPoint (padd P Q) := by
  obtain ⟨k, hk, hval⟩ := hP.padd_val hQ
  rw [goodPoint_iff (padd_canonical P Q), hval, Tuple.scale_valid_iff hk]
  exact sumTuple_valid hP hQ

/-- The affine sum (43_curvepoint.md R160), each coordinate by its denominator. -/
theorem GoodPoint.affine_padd (hP : GoodPoint P) (hQ : GoodPoint Q) {m : GFp2}
    (hm : m = curveD.val * ((affineX P).val * (affineX Q).val) * ((affineY P).val * (affineY Q).val)) :
    (affineX (Machine.padd P Q)).val * (1 + m)
        = (affineX P).val * (affineY Q).val + (affineY P).val * (affineX Q).val
      ∧ (affineY (Machine.padd P Q)).val * (1 - m)
        = (affineY P).val * (affineY Q).val + (affineX P).val * (affineX Q).val := by
  have := GFp2_isDomain
  obtain ⟨k, hk, hval⟩ := hP.padd_val hQ
  obtain ⟨hplus, hminus⟩ := hP.denominators_ne_zero hQ hm
  have hR := hP.padd hQ
  obtain ⟨eX, eY, eZ, -⟩ := Tuple.ext_iff.1 hval
  simp only [Tuple.scale, sumTuple, Point.val_X, Point.val_Y, Point.val_Z, ← hm] at eX eY eZ
  have hx := affineX_mul hR.1.2.2.1 hR.Z_ne_ezero
  have hy := affineY_mul hR.1.2.2.1 hR.Z_ne_ezero
  rw [eX, eZ] at hx
  rw [eY, eZ] at hy
  refine ⟨mul_left_cancel₀ (mul_ne_zero hk hminus) ?_, mul_left_cancel₀ (mul_ne_zero hk hplus) ?_⟩
  · linear_combination hx
  · linear_combination hy

theorem padd_comm (P Q : Point) : Machine.padd P Q = Machine.padd Q P := by
  refine (Point.val_inj (padd_canonical P Q) (padd_canonical Q P)).1 (Tuple.ext ?_ ?_ ?_ ?_) <;>
  · simp only [Machine.padd, Point.val, val_emul, val_esub, val_eadd, val_edouble]
    ring

theorem neutral_val : Point.neutral.val = .ofPair 0 1 1 := by
  refine Tuple.ext val_ezero ?_ val_eone ?_
  · exact val_eone.trans (mul_one 1).symm
  · exact val_ezero.trans (by rw [Tuple.ofPair, zero_mul, zero_mul])

theorem padd_neutral_same (hP : GoodPoint P) : sameAffine (Machine.padd P Point.neutral) P = true := by
  rw [sameAffine_iff, Machine.padd_val hP.val_eq neutral_val, hP.val_eq]
  simp only [Tuple.Same, Tuple.scale, Tuple.ofPair, sumTuple]
  constructor <;> ring

/-! The negative. -/

theorem pneg_val {x y z : GFp2} (hP : P.val = .ofPair x y z) : (pneg P).val = .ofPair (-x) y z := by
  obtain ⟨hX, hY, hZ, hT⟩ := Tuple.ext_iff.1 hP
  refine Tuple.ext ?_ hY hZ ?_
  · exact (val_eneg _).trans ((congrArg Neg.neg hX).trans (neg_mul x z).symm)
  · refine (val_eneg _).trans ((congrArg Neg.neg hT).trans ?_)
    simp only [Tuple.ofPair]
    ring

theorem GoodPoint.pneg (hP : GoodPoint P) : GoodPoint (pneg P) := by
  have hcurve := hP.onCurve
  rw [goodPoint_iff (pneg_canonical hP.1), pneg_val hP.val_eq, Tuple.ofPair_valid_iff hP.Z_val_ne_zero]
  rwa [OnCurve, Edwards.OnCurve, neg_sq]

theorem GoodPoint.affine_pneg (hP : GoodPoint P) :
    affineX (Machine.pneg P) = eneg (affineX P) ∧ affineY (Machine.pneg P) = affineY P := by
  have hR := hP.pneg
  have hx : -(affineX P).val * P.Z.val = (Machine.pneg P).X.val := by
    rw [neg_mul, affineX_mul hP.1.2.2.1 hP.Z_ne_ezero]
    exact (val_eneg _).symm
  have hy : (affineY P).val * P.Z.val = P.Y.val := affineY_mul hP.1.2.2.1 hP.Z_ne_ezero
  obtain ⟨ex, ey⟩ := affine_unique (P := Machine.pneg P) hR.1.2.2.1 hR.Z_ne_ezero hx hy
  rw [← val_eneg] at ex
  exact ⟨(val_inj (emul_canonical _ _) (eneg_canonical _)).1 ex,
    (val_inj (emul_canonical _ _) (emul_canonical _ _)).1 ey⟩

/-- Of (x, y) and (-x, y) the sum's numerator of x is zero, and the curve equation makes the other fraction 1. -/
theorem padd_pneg_same (hP : GoodPoint P) : sameAffine (Machine.padd P (pneg P)) Point.neutral = true := by
  have hcurve := hP.onCurve
  rw [OnCurve, Edwards.OnCurve] at hcurve
  rw [sameAffine_iff, Machine.padd_val hP.val_eq (pneg_val hP.val_eq), neutral_val]
  generalize (affineX P).val = x, (affineY P).val = y, P.Z.val = z at *
  simp only [Tuple.Same, Tuple.scale, Tuple.ofPair, sumTuple]
  constructor
  · ring
  · linear_combination (2 * (z * z)) ^ 2 * (1 - curveD.val * x ^ 2 * y ^ 2) * hcurve

/-! The doubling. -/

/-- PADD of a valid point to itself and PDBL give tuples of one affine point, which differ by the factor -4. -/
theorem padd_self_val (hP : GoodPoint P) : (Machine.padd P P).val = (pdbl P).val.scale (-4) := by
  have hcurve := hP.onCurve
  obtain ⟨hX, hY, hZ, -⟩ := Tuple.ext_iff.1 hP.val_eq
  rw [Machine.padd_val hP.val_eq hP.val_eq]
  generalize (affineX P).val = x, (affineY P).val = y, P.Z.val = z at *
  have hm : curveD.val * (x * x) * (y * y) = -x ^ 2 + y ^ 2 - 1 := by
    rw [OnCurve, Edwards.OnCurve] at hcurve
    linear_combination -hcurve
  simp only [Tuple.ofPair, Point.val_X, Point.val_Y, Point.val_Z] at hX hY hZ
  refine Tuple.ext ?_ ?_ ?_ ?_ <;>
  · simp only [pdbl, Point.val, val_emul, val_esub, val_eadd, val_eneg, val_esq, val_edouble, Tuple.scale, sumTuple, hm,
      hX, hY, hZ]
    ring

theorem GoodPoint.pdbl (hP : GoodPoint P) : GoodPoint (pdbl P) ∧ sameAffine (pdbl P) (Machine.padd P P) = true := by
  have := GFp2_isDomain
  have hfour : (-4 : GFp2) ≠ 0 := by
    rw [show (-4 : GFp2) = -2 ^ 2 by ring]
    exact neg_ne_zero.2 (pow_ne_zero 2 GFp2_two_ne_zero)
  have hval := padd_self_val hP
  have hvalid := (hP.padd hP).valid
  rw [hval, Tuple.scale_valid_iff hfour] at hvalid
  refine ⟨(goodPoint_iff (pdbl_canonical P)).2 hvalid, ?_⟩
  rw [sameAffine_iff, hval]
  exact Tuple.same_scale _ _

theorem ofAffine_affine_same (hP : GoodPoint P) : sameAffine (ofAffine (affineX P) (affineY P)) P = true := by
  rw [sameAffine_iff, ofAffine_val, hP.val_eq]
  simp only [Tuple.Same, Tuple.ofPair]
  constructor <;> ring

end Sys2Proof.Machine
end

section
/-! PHI and PSI: X*Y = Z*T always, a scaled tuple gives a scaled tuple, and O gives O (43_curvepoint.md R173 to
R175). Each of the four maps is homogeneous, so none of their constants matters here but for the value at O. -/

namespace Sys2Proof.Machine

/-- (X, Y, Z) of Q are those of P, scaled by k. -/
structure Proj.Scaled (k : GFp2) (P Q : Proj) : Prop where
  X : Q.X.val = k * P.X.val
  Y : Q.Y.val = k * P.Y.val
  Z : Q.Z.val = k * P.Z.val

namespace Proj.Scaled

variable {k : GFp2} {P Q : Proj}

theorem tau (h : Scaled k P Q) : Scaled (k ^ 4) (tau P) (tau Q) := by
  obtain ⟨hX, hY, hZ⟩ := h
  constructor <;>
  · simp only [Machine.tau, val_emul, val_esub, val_eadd, val_esq, hX, hY, hZ]
    ring

theorem delphidel (h : Scaled k P Q) : Scaled (star k ^ 10) (delphidel P) (delphidel Q) := by
  obtain ⟨hX, hY, hZ⟩ := h
  constructor <;>
  · simp only [Machine.delphidel, val_emul, val_esub, val_eadd, val_esq, val_econj, hX, hY, hZ]
    rw [← star_pow, ← star_mul']
    refine congrArg star ?_
    ring

theorem delpsidel (h : Scaled k P Q) : Scaled (star k ^ 5) (delpsidel P) (delpsidel Q) := by
  obtain ⟨hX, hY, hZ⟩ := h
  constructor <;>
  · simp only [Machine.delpsidel, val_emul, val_eadd, val_esq, val_eneg, val_econj, hX, hY, hZ, star_mul']
    ring

theorem tauDual (h : Scaled k P Q) : (tauDual Q).val = (tauDual P).val.scale (k ^ 4) := by
  obtain ⟨hX, hY, hZ⟩ := h
  refine Tuple.ext ?_ ?_ ?_ ?_ <;>
  · simp only [Machine.tauDual, Point.val, Tuple.scale, val_emul, val_esub, val_eadd, val_esq, hX, hY, hZ]
    ring

end Proj.Scaled

theorem scaled_of_val {P Q : Point} {k : GFp2} (h : Q.val = P.val.scale k) :
    Proj.Scaled k ⟨P.X, P.Y, P.Z⟩ ⟨Q.X, Q.Y, Q.Z⟩ :=
  ⟨congrArg Tuple.X h, congrArg Tuple.Y h, congrArg Tuple.Z h⟩

/-- F takes tuples of one affine point to tuples of one affine point. -/
def RespectsScaling (F : Point → Point) : Prop :=
  ∀ {P Q : Point} {k : GFp2}, k ≠ 0 → Q.val = P.val.scale k → ∃ l ≠ 0, (F Q).val = (F P).val.scale l

theorem phi_respectsScaling : RespectsScaling phi := by
  intro P Q k hk h
  have := GFp2_isDomain
  exact ⟨_, pow_ne_zero 4 (pow_ne_zero 10 (star_ne_zero.2 (pow_ne_zero 4 hk))), (scaled_of_val h).tau.delphidel.tauDual⟩

theorem psi_respectsScaling : RespectsScaling psi := by
  intro P Q k hk h
  have := GFp2_isDomain
  exact ⟨_, pow_ne_zero 4 (pow_ne_zero 5 (star_ne_zero.2 (pow_ne_zero 4 hk))), (scaled_of_val h).tau.delpsidel.tauDual⟩

/-- The last map's T makes the two products equal, whatever it is given. -/
theorem tauDual_XY (P : Proj) :
    emul (tauDual P).X (tauDual P).Y = emul (tauDual P).Z (tauDual P).T := by
  rw [← val_inj (emul_canonical _ _) (emul_canonical _ _)]
  simp only [tauDual, val_emul]
  ring

/-- Every valid tuple of O is (0, 1, 1, 0), scaled. -/
theorem val_of_same_neutral {P : Point} (hP : GoodPoint P) (h : sameAffine P Point.neutral = true) :
    P.val = Point.neutral.val.scale P.Z.val := by
  have := GFp2_isDomain
  rw [sameAffine_iff, neutral_val] at h
  obtain ⟨hX, hY⟩ := h
  obtain ⟨hz, hXY, -⟩ := hP.valid
  simp only [Tuple.ofPair, zero_mul, mul_one, one_mul] at hX hY
  have hT : P.val.T = 0 := by
    rw [hX, zero_mul] at hXY
    exact (mul_eq_zero.1 hXY.symm).resolve_left hz
  rw [neutral_val]
  refine Tuple.ext ?_ ?_ ?_ ?_ <;> simp only [Tuple.scale, Tuple.ofPair, mul_zero, mul_one]
  · exact hX
  · exact hY
  · rfl
  · exact hT

/-- A map that respects scaling and takes (0, 1, 1, 0) to a tuple of O takes every valid tuple of O to one. -/
theorem RespectsScaling.neutral {F : Point → Point} (hF : RespectsScaling F) {P : Point}
    (hcan : Fe2Canonical (F Point.neutral).Z) (hne : (F Point.neutral).Z ≠ ezero)
    (hO : sameAffine (F Point.neutral) Point.neutral = true) (hP : GoodPoint P)
    (h : sameAffine P Point.neutral = true) :
    (F P).Z ≠ ezero ∧ sameAffine (F P) Point.neutral = true := by
  have := GFp2_isDomain
  obtain ⟨l, hl, hval⟩ := hF hP.Z_val_ne_zero (val_of_same_neutral hP h)
  refine ⟨scaled_Z_ne_ezero hl hval hcan hne, ?_⟩
  have hone : Point.neutral.val = Point.neutral.val.scale 1 := by simp only [Tuple.scale, one_mul]
  rw [sameAffine_iff, hval, hone, Tuple.scale_same_scale_iff hl one_ne_zero, ← sameAffine_iff]
  exact hO

theorem phi_neutral : (phi Point.neutral).Z ≠ ezero ∧ sameAffine (phi Point.neutral) Point.neutral = true := by
  decide +kernel

theorem psi_neutral : (psi Point.neutral).Z ≠ ezero ∧ sameAffine (psi Point.neutral) Point.neutral = true := by
  decide +kernel

end Sys2Proof.Machine
end

section
/-! The commands on points: their words, and what each does, by its outcome (43_curvepoint.md R162 to R174). -/

namespace Sys2Proof.Machine

/-- The number of a word with no more than three operands, each a register of any file (30_encoding.md R93, R100). -/
theorem packR_operands_toNat {op d a b : Nat} (hop : op < 256) (h : d < 16 ∧ a < 16 ∧ b < 16) :
    (packR op d a b 0 0).toNat = wordR op d a b 0 0 :=
  packR_toNat hop (fit_mk (by omega))

theorem succeed_wrP (s : State) (d : PReg) (v : Point) :
    succeed (s.wrP d v) = .next { s with p := s.p.set d v, result := 0, running := none } := rfl

theorem exec_pgen (d : PReg) (s : State) : exec (.pgen d) s = succeed (s.wrP d generator) := rfl

theorem exec_padd (d a b : PReg) (s : State) :
    exec (.padd d a b) s = succeed (s.wrP d (padd (s.rdP a) (s.rdP b))) := rfl

theorem exec_pdbl (d a : PReg) (s : State) : exec (.pdbl d a) s = succeed (s.wrP d (pdbl (s.rdP a))) := rfl

theorem exec_ponc (a : PReg) (s : State) : exec (.ponc a) s = succeed (s.setFlag (pvalid (s.rdP a))) := rfl

theorem exec_eonc (a b : EReg) (s : State) :
    exec (.eonc a b) s = succeed (s.setFlag (affineOnCurve (s.rdE a) (s.rdE b))) := rfl

theorem exec_paffx_zero {a : PReg} {s : State} (d : EReg) (hZ : (s.rdP a).Z = ezero) :
    exec (.paffx d a) s = fail (.paffx d a) .zeroInversion s := by
  rw [exec, execPaffx, if_pos hZ]

theorem exec_paffy_zero {a : PReg} {s : State} (d : EReg) (hZ : (s.rdP a).Z = ezero) :
    exec (.paffy d a) s = fail (.paffy d a) .zeroInversion s := by
  rw [exec, execPaffy, if_pos hZ]

theorem exec_penc {a : PReg} {s : State} (hZ : (s.rdP a).Z ≠ ezero) :
    exec (.penc a) s = succeed (s.putString 32 (encodedPoint (affineX (s.rdP a)) (affineY (s.rdP a)))) := by
  rw [exec, execPenc, if_neg hZ]

theorem exec_pseta_off {a b : EReg} {s : State} (d : PReg) (h : affineOnCurve (s.rdE a) (s.rdE b) = false) :
    exec (.pseta d a b) s = fail (.pseta d a b) .pointNotOnCurve s := by
  rw [exec, execPseta, if_pos h]

theorem exec_pseta {a b : EReg} {s : State} (d : PReg) (h : affineOnCurve (s.rdE a) (s.rdE b) = true) :
    exec (.pseta d a b) s = succeed (s.wrP d (ofAffine (s.rdE a) (s.rdE b))) := by
  rw [exec, execPseta, if_neg (Bool.not_eq_false _ ▸ h)]

theorem neutral_good : GoodPoint Point.neutral := by decide +kernel

theorem generator_good : GoodPoint generator := by decide +kernel

/-- Settles O35: both tuples are constants, and their validity is a small computation. -/
theorem identityAndGeneratorAreLoaded : Obligations.IdentityAndGeneratorAreLoaded := by
  refine ⟨fun s d => ⟨packR_operands_toNat (by decide) (by omega), packR_operands_toNat (by decide) (by omega), ?pid,
    ?pgen⟩, neutral_good, generator_good⟩
  case pid => exact (exec_pid d s).trans (succeed_wrP s d _)
  case pgen => exact (exec_pgen d s).trans (succeed_wrP s d _)

/-- Settles O39: each flag is a conjunction of decided equations. -/
theorem pointPredicatesSetFlag : Obligations.PointPredicatesSetFlag := by
  refine ⟨fun s a => ⟨packR_operands_toNat (by decide) (by omega), ?ponc⟩,
    fun s a c => ⟨packR_operands_toNat (by decide) (by omega), ?peq⟩,
    fun s a c => ⟨packR_operands_toNat (by decide) (by omega), ?eonc⟩⟩
  case ponc =>
    refine ⟨_, (exec_ponc a s).trans (succeed_setFlag s _), ?_⟩
    rw [pvalid, Bool.and_eq_true, Bool.and_eq_true, decide_eq_true_iff, decide_eq_true_iff, decide_eq_true_iff,
      and_assoc]
    rfl
  case peq =>
    refine ⟨_, (exec_peq a c s).trans (succeed_setFlag s _), ?_⟩
    rw [sameAffine, Bool.and_eq_true, decide_eq_true_iff, decide_eq_true_iff]
    rfl
  case eonc =>
    refine ⟨_, (exec_eonc a c s).trans (succeed_setFlag s _), ?_⟩
    rw [affineOnCurve, decide_eq_true_iff]
    rfl

/-- Settles O41: PSETA's check is the curve equation, which is the validity of the tuple (ofAffine_good_iff). -/
theorem checkedPointConstruction : Obligations.CheckedPointConstruction := by
  intro s d a b x y onCurve
  have hcurve : onCurve ↔ affineOnCurve x y = true := by
    rw [affineOnCurve, decide_eq_true_iff]
    rfl
  refine ⟨packR_operands_toNat (by decide) (by omega), fun hoff => ?off, fun hon => ?on, fun hon hx hy => ?good⟩
  case off =>
    exact (exec_pseta_off d (Bool.eq_false_iff.2 (mt hcurve.2 hoff))).trans (fail_recoverable _ s (by decide))
  case on => exact (exec_pseta d (hcurve.1 hon)).trans (succeed_wrP s d _)
  case good => exact (ofAffine_good_iff hx hy).2 (hcurve.1 hon)

/-- Settles O40: the inverse of Z makes each quotient times Z the coordinate again. -/
theorem affineConversionDividesByZ : Obligations.AffineConversionDividesByZ := by
  intro s d a
  refine ⟨packR_operands_toNat (by decide) (by omega), packR_operands_toNat (by decide) (by omega), fun hzero => ?zero,
    fun hP hne => ?nonzero⟩
  case zero =>
    exact ⟨(exec_paffx_zero d hzero).trans (fail_fatal _ s), (exec_paffy_zero d hzero).trans (fail_fatal _ s)⟩
  case nonzero =>
    obtain ⟨hX, hY, hZ, -⟩ := hP
    refine ⟨_, _, (exec_paffx d hne).trans (succeed_wrE s d _), (exec_paffy d hne).trans (succeed_wrE s d _),
      emul_canonical _ _, emul_canonical _ _, ?x, ?y⟩
    case x => exact (val_inj (emul_canonical _ _) hX).1 ((val_emul _ _).trans (affineX_mul hZ hne))
    case y => exact (val_inj (emul_canonical _ _) hY).1 ((val_emul _ _).trans (affineY_mul hZ hne))

/-- Settles O36: the tuple of the sum (GoodPoint.padd_val), its denominators (GoodPoint.denominators_ne_zero) and its
affine coordinates (GoodPoint.affine_padd), back from values to elements. -/
theorem pointAdditionIsTheAffineSum : Obligations.PointAdditionIsTheAffineSum := by
  intro s d a b
  refine ⟨packR_operands_toNat (by decide) (by omega), _, (exec_padd d a b s).trans (succeed_wrP s d _), ?_⟩
  intro hP hQ x1 y1 x2 y2 m
  have hm : m.val = curveD.val * (x1.val * x2.val) * (y1.val * y2.val) := by simp only [m, val_emul]
  obtain ⟨hplus, hminus⟩ := GoodPoint.denominators_ne_zero hP hQ hm
  obtain ⟨hx, hy⟩ := GoodPoint.affine_padd hP hQ hm
  refine ⟨GoodPoint.padd hP hQ, ?plus, ?minus, ?x, ?y⟩
  case plus =>
    refine mt (val_eq_zero_iff (eadd_canonical _ _)).2 ?_
    rw [val_eadd]
    exact val_eone ▸ hplus
  case minus =>
    refine mt (val_eq_zero_iff (esub_canonical _ _)).2 ?_
    rw [val_esub]
    exact val_eone ▸ hminus
  case x =>
    rw [← val_inj (emul_canonical _ _) (eadd_canonical _ _)]
    simp only [val_emul, val_eadd]
    exact val_eone ▸ hx
  case y =>
    rw [← val_inj (emul_canonical _ _) (eadd_canonical _ _)]
    simp only [val_emul, val_eadd, val_esub]
    exact val_eone ▸ hy

/-- Settles O37: PADD of P to itself is PDBL's tuple times -4 (padd_self_val), and the negative of a valid point is
valid (GoodPoint.pneg). -/
theorem doublingAndNegation : Obligations.DoublingAndNegation := by
  intro s d a
  refine ⟨⟨packR_operands_toNat (by decide) (by omega), packR_operands_toNat (by decide) (by omega)⟩,
    ⟨_, (exec_pdbl d a s).trans (succeed_wrP s d _), fun hP => ?pdbl⟩,
    ⟨_, (exec_pneg d a s).trans (succeed_wrP s d _), rfl, rfl, rfl, rfl, fun hP => ?pneg⟩⟩
  case pdbl =>
    obtain ⟨hgood, hsame⟩ := GoodPoint.pdbl hP
    exact ⟨hgood, _, (exec_padd d a a s).trans (succeed_wrP s d _), hsame⟩
  case pneg => exact ⟨GoodPoint.pneg hP, GoodPoint.affine_pneg hP⟩

/-- Settles O38: each identity is an equation of the tuples' values; the inverse's needs the curve equation too
(padd_pneg_same). -/
theorem groupLawIdentities : Obligations.GroupLawIdentities := fun P Q hP _ =>
  ⟨padd_neutral_same hP, padd_pneg_same hP, padd_comm P Q, pneg_pneg hP.1, ofAffine_affine_same hP⟩

end Sys2Proof.Machine
end

section
/-! What shows of a point does not change when its tuple is scaled (43_curvepoint.md R161). -/

namespace Sys2Proof.Machine

/-- P and Q are tuples of one affine point, Q the scaled one. -/
structure Rescaled (P Q : Point) : Prop where
  scaled : ∃ k ≠ 0, Q.val = P.val.scale k
  canonical : Fe2Canonical P.Z
  canonical' : Fe2Canonical Q.Z
  ne : P.Z ≠ ezero

theorem rescaled_scalePoint {c : Fe2} {P : Point} (hc : Fe2Canonical c) (hcne : c ≠ ezero) (hP : PointCanonical P)
    (hne : P.Z ≠ ezero) : Rescaled P (scalePoint c P) where
  scaled := ⟨c.val, mt (val_eq_zero_iff hc).1 hcne, scalePoint_val c P⟩
  canonical := hP.2.2.1
  canonical' := (scalePoint_canonical c P).2.2.1
  ne := hne

namespace Rescaled

variable {P Q : Point}

theorem ne' (h : Rescaled P Q) : Q.Z ≠ ezero := by
  obtain ⟨⟨_, hk, hval⟩, hP, -, hne⟩ := h
  exact scaled_Z_ne_ezero hk hval hP hne

/-- The affine coordinates of P are those of Q too, as these are unique. -/
theorem affine (h : Rescaled P Q) : affineX Q = affineX P ∧ affineY Q = affineY P := by
  have hne' := h.ne'
  obtain ⟨⟨k, hk, hval⟩, hP, hQ, hne⟩ := h
  obtain ⟨eX, eY, eZ, -⟩ := Tuple.ext_iff.1 hval
  simp only [Tuple.scale, Point.val_X, Point.val_Y, Point.val_Z] at eX eY eZ
  obtain ⟨hx, hy⟩ := affine_unique hQ hne' (x := (affineX P).val) (y := (affineY P).val)
    (by rw [eZ, eX, ← affineX_mul hP hne]; ring) (by rw [eZ, eY, ← affineY_mul hP hne]; ring)
  exact ⟨(val_inj (emul_canonical _ _) (emul_canonical _ _)).1 hx,
    (val_inj (emul_canonical _ _) (emul_canonical _ _)).1 hy⟩

theorem pvalid (h : Rescaled P Q) : pvalid Q = pvalid P := by
  obtain ⟨⟨k, hk, hval⟩, hP, hQ, -⟩ := h
  rw [Bool.eq_iff_iff, pvalid_iff hQ, pvalid_iff hP, hval, Tuple.scale_valid_iff hk]

end Rescaled

/-- The command i succeeds with P[a] as it is and with Q in P[a], and makes the same writes. -/
def SameWrites (i : Instr) (s : State) (a : PReg) (Q : Point) : Prop :=
  ∃ u, exec i s = succeed u ∧ exec i (s.wrP a Q) = succeed { u with p := s.p.set a Q }

theorem SameWrites.next {i : Instr} {s t : State} {a : PReg} {Q : Point} (h : SameWrites i s a Q)
    (hexec : exec i s = .next t) : exec i (s.wrP a Q) = .next { t with p := s.p.set a Q } := by
  obtain ⟨u, hu, hu'⟩ := h
  rw [hu, succeed_next] at hexec
  rw [hu', hexec]
  rfl

section

variable {s : State} {a : PReg} {Q : Point}

theorem sameWrites_paffx (h : Rescaled (s.rdP a) Q) (d : EReg) : SameWrites (.paffx d a) s a Q := by
  have hread := State.rdP_wrP_same s a Q
  refine ⟨_, exec_paffx d h.ne, (exec_paffx d (hread.symm ▸ h.ne')).trans ?_⟩
  rw [hread, h.affine.1]
  rfl

theorem sameWrites_paffy (h : Rescaled (s.rdP a) Q) (d : EReg) : SameWrites (.paffy d a) s a Q := by
  have hread := State.rdP_wrP_same s a Q
  refine ⟨_, exec_paffy d h.ne, (exec_paffy d (hread.symm ▸ h.ne')).trans ?_⟩
  rw [hread, h.affine.2]
  rfl

theorem sameWrites_penc (h : Rescaled (s.rdP a) Q) : SameWrites (.penc a) s a Q := by
  have hread := State.rdP_wrP_same s a Q
  refine ⟨_, exec_penc h.ne, (exec_penc (hread.symm ▸ h.ne')).trans ?_⟩
  rw [hread, h.affine.1, h.affine.2]
  rfl

theorem sameWrites_ponc (h : Rescaled (s.rdP a) Q) : SameWrites (.ponc a) s a Q := by
  refine ⟨_, exec_ponc a s, (exec_ponc a _).trans ?_⟩
  rw [State.rdP_wrP_same, h.pvalid]
  rfl

/-- With Q in P[a] every point register holds a scaled tuple of what it held: by the factor 1, but for P[a]. -/
theorem rdP_wrP_scaled (h : Rescaled (s.rdP a) Q) (b : PReg) :
    ∃ k ≠ 0, ((s.wrP a Q).rdP b).val = (s.rdP b).val.scale k := by
  have := GFp2_isDomain
  by_cases hba : b = a
  · subst hba
    rw [State.rdP_wrP_same]
    exact h.scaled
  · rw [State.rdP_wrP_other s a b _ hba]
    exact ⟨1, one_ne_zero, by simp only [Tuple.scale, one_mul]⟩

/-- Of any two registers, so of P[a] as the first, as the second and as both. -/
theorem sameWrites_peq (h : Rescaled (s.rdP a) Q) (b c : PReg) : SameWrites (.peq b c) s a Q := by
  obtain ⟨k, hk, hb⟩ := rdP_wrP_scaled h b
  obtain ⟨l, hl, hc⟩ := rdP_wrP_scaled h c
  have hsame : sameAffine ((s.wrP a Q).rdP b) ((s.wrP a Q).rdP c) = sameAffine (s.rdP b) (s.rdP c) := by
    rw [Bool.eq_iff_iff, sameAffine_iff, sameAffine_iff, hb, hc, Tuple.scale_same_scale_iff hk hl]
  refine ⟨_, exec_peq b c s, (exec_peq b c _).trans ?_⟩
  rw [hsame]
  rfl

end

/-- Settles O43: PAFFX, PAFFY and PENC see the affine coordinates alone (Rescaled.affine), PONC and PEQ equations that
scaling keeps (Rescaled.pvalid, sameWrites_peq). -/
theorem onlyTheAffinePointShows : Obligations.OnlyTheAffinePointShows := by
  intro s t a c i hc hcne hP hne _ hi hexec
  have h : Rescaled (s.rdP a) (scalePoint c (s.rdP a)) := rescaled_scalePoint hc hcne hP hne
  suffices hwrites : SameWrites i s a (scalePoint c (s.rdP a)) from hwrites.next hexec
  obtain ⟨d, rfl⟩ | ⟨d, rfl⟩ | rfl | rfl | ⟨b, rfl⟩ | ⟨b, rfl⟩ := hi
  · exact sameWrites_paffx h d
  · exact sameWrites_paffy h d
  · exact sameWrites_penc h
  · exact sameWrites_ponc h
  · exact sameWrites_peq h a b
  · exact sameWrites_peq h b a

end Sys2Proof.Machine
end

section
/-! The endomorphisms' commands and the exceptional points (43_curvepoint.md R173, R174, R176). -/

namespace Sys2Proof.Machine

theorem exec_pphi {d a : PReg} {s : State} (h : (phi (s.rdP a)).Z ≠ ezero) :
    exec (.pphi d a) s = succeed (s.wrP d (phi (s.rdP a))) := by
  rw [exec, execPphi_done h]

theorem exec_ppsi {d a : PReg} {s : State} (h : (psi (s.rdP a)).Z ≠ ezero) :
    exec (.ppsi d a) s = succeed (s.wrP d (psi (s.rdP a))) := by
  rw [exec, execPpsi_done h]

/-- Settles O42: the image is tauDual's (tauDual_XY), and a valid tuple of O is (0, 1, 1, 0), scaled
(RespectsScaling.neutral). -/
theorem endomorphismsCompleteOffExceptionalPoints : Obligations.EndomorphismsCompleteOffExceptionalPoints := by
  intro s d a
  refine ⟨⟨packR_operands_toNat (by decide) (by omega), packR_operands_toNat (by decide) (by omega)⟩, fun hne => ?pphi,
    fun hne => ?ppsi, fun hP hO => ?neutral⟩
  case pphi => exact ⟨_, (exec_pphi hne).trans (succeed_wrP s d _), rfl, hne, tauDual_XY _⟩
  case ppsi => exact ⟨_, (exec_ppsi hne).trans (succeed_wrP s d _), rfl, hne, tauDual_XY _⟩
  case neutral =>
    obtain ⟨hphi, hphiO⟩ := phi_neutral
    obtain ⟨hpsi, hpsiO⟩ := psi_neutral
    obtain ⟨hne, hsame⟩ := phi_respectsScaling.neutral (phi_canonical _).2.2.1 hphi hphiO hP hO
    obtain ⟨hne', hsame'⟩ := psi_respectsScaling.neutral (psi_canonical _).2.2.1 hpsi hpsiO hP hO
    exact ⟨hne, hsame, hne', hsame'⟩

theorem buildTable_eq_none {P : Point} (h : ¬NotExceptional P) : buildTable P = none :=
  Option.eq_none_iff_forall_ne_some.2 fun _ htb => h (buildTable_some.1 htb).1

theorem smulval_eq_none {P : Point} (h : ¬NotExceptional P) (k : Scalar) : smulval k P = none := by
  rw [smulval, buildTable_eq_none h, Option.map_none]

/-- Settles O53: each command takes the branch of an exceptional point, and the error is a recoverable one. -/
theorem exceptionalPointsRaise : Obligations.ExceptionalPointsRaise := by
  intro s d a
  have hraise : ∀ i, fail i .exceptionalPoint s = .next (raised s i 7) := fun i => fail_recoverable i s (by decide)
  refine ⟨fun h => ?pphi, fun h => ?ppsi, fun h => ⟨?tbuild, fun k => ?smul, fun k k' => ?dsmulg, fun k b k' =>
    ⟨?dsmulFirst, ?dsmulSecond⟩⟩⟩
  case pphi => exact (execPphi_exceptional h).trans (hraise _)
  case ppsi => exact (execPpsi_exceptional h).trans (hraise _)
  case tbuild => exact (execTbuild_none (buildTable_eq_none h)).trans (hraise _)
  case smul => exact (execSmul_none (smulval_eq_none h _)).trans (hraise _)
  case dsmulg => exact (execDsmulg_none (smulval_eq_none h _)).trans (hraise _)
  case dsmulFirst => exact (execDsmul_none (.inl (smulval_eq_none h _))).trans (hraise _)
  case dsmulSecond => exact (execDsmul_none (.inr (smulval_eq_none h _))).trans (hraise _)

end Sys2Proof.Machine
end

section
/-! The byte strings of scalars: KFROMB, KTOB and the reduction modulo ORDER_N (44_scalar.md R190 to R193). -/

namespace Sys2Proof.Machine

/-! The commands, by their outcome. -/

theorem succeed_wrK (s : State) (d : KReg) (v : Scalar) :
    succeed (s.wrK d v) = .next { s with k := s.k.set d v, result := 0, running := none } := rfl

theorem exec_kfromb_length (d : KReg) {s : State} (h : s.blen.toNat ≠ 32) :
    exec (.kfromb d) s = fail (.kfromb d) .invalidEncodingLength s := by
  rw [exec, execKfromb, if_pos ((s.lengthIs_eq_false_iff 32).2 h)]

theorem exec_kred_length (d : KReg) {s : State} (h32 : s.blen.toNat ≠ 32) (h64 : s.blen.toNat ≠ 64) :
    exec (.kred d) s = fail (.kred d) .invalidEncodingLength s := by
  rw [exec, execKred, if_pos ⟨(s.lengthIs_eq_false_iff 32).2 h32, (s.lengthIs_eq_false_iff 64).2 h64⟩]

theorem exec_kred (d : KReg) {s : State} {n : Nat} (hn : n = 32 ∨ n = 64) (h : s.blen.toNat = n) :
    exec (.kred d) s = succeed (s.wrK d (BitVec.ofNat 256 (s.getString 0 n % orderN))) := by
  have hlen : ¬(s.lengthIs 32 = false ∧ s.lengthIs 64 = false) := by
    rw [s.lengthIs_eq_false_iff, s.lengthIs_eq_false_iff]
    omega
  rw [exec, execKred, if_neg hlen, h]

/-! The values. -/

/-- A string of 32 bytes fits a scalar register, whatever its bytes (44_scalar.md R190). -/
theorem toNat_scalar_of_string (s : State) : (BitVec.ofNat 256 (s.getString 0 32)).toNat = memValue s.buf 0 32 := by
  have hlt : s.getString 0 32 < 256 ^ 32 := Memory.readLE_lt s.buf 0 32
  rw [BitVec.toNat_ofNat, ← State.getString_eq]
  exact Nat.mod_eq_of_lt hlt

/-- A remainder modulo ORDER_N fits a scalar register. -/
theorem toNat_scalar_of_mod_orderN (z : Nat) : (BitVec.ofNat 256 (z % orderN)).toNat = z % orderN := by
  have hlt : z % orderN < orderN := Nat.mod_lt z (by decide)
  have hN : orderN < 2 ^ 256 := by decide
  rw [BitVec.toNat_ofNat]
  exact Nat.mod_eq_of_lt (hlt.trans hN)

/-- Settles O44: KFROMB checks the length alone, and KTOB is a putString of 32 bytes. -/
theorem scalarBytes : Obligations.ScalarBytes := by
  refine ⟨fun s d => ⟨packR_operands_toNat (by decide) (by omega), fun hlen => ?length, fun hlen => ?kfromb⟩,
    fun s a => ⟨packR_operands_toNat (by decide) (by omega), ?ktob⟩⟩
  case length =>
    have hlen' : s.blen.toNat ≠ 32 := fun h => hlen (BitVec.eq_of_toNat_eq h)
    exact (exec_kfromb_length d hlen').trans (fail_recoverable _ s (by decide))
  case kfromb =>
    exact ⟨_, toNat_scalar_of_string s, (exec_kfromb d (congrArg BitVec.toNat hlen)).trans (succeed_wrK s d _)⟩
  case ktob => exact ⟨_, (exec_ktob a s).trans (succeed_putString s 32 _), State.putString_wrote s 32 _⟩

/-- Settles O45: the register holds the remainder itself (toNat_scalar_of_mod_orderN). -/
theorem scalarReduction : Obligations.ScalarReduction := by
  intro s d
  refine ⟨packR_operands_toNat (by decide) (by omega), fun h32 h64 => ?length, fun n hn hlen => ?kred⟩
  case length =>
    have h32' : s.blen.toNat ≠ 32 := fun h => h32 (BitVec.eq_of_toNat_eq h)
    have h64' : s.blen.toNat ≠ 64 := fun h => h64 (BitVec.eq_of_toNat_eq h)
    exact (exec_kred_length d h32' h64').trans (fail_recoverable _ s (by decide))
  case kred =>
    refine ⟨_, ?bound, ?residue, (exec_kred d hn hlen).trans (succeed_wrK s d _)⟩
    case bound =>
      rw [toNat_scalar_of_mod_orderN]
      exact Nat.mod_lt _ (by decide)
    case residue =>
      rw [toNat_scalar_of_mod_orderN, ← State.getString_eq]
      exact Nat.mod_modEq _ _

end Sys2Proof.Machine
end

section
/-! The decomposition: the vectors whose value is 0 modulo ORDER_N, and the lanes as integers (44_scalar.md R194,
R195). -/

namespace Sys2Proof.Machine

/-- The multiplier that the four lanes stand for: a1 + a2*LAMBDA_PHI + a3*LAMBDA_PSI + a4*LAMBDA_PHI*LAMBDA_PSI. -/
def Int4.value (v : Int4) : Int := v.x1 + v.x2 * lambdaPhi + v.x3 * lambdaPsi + v.x4 * lambdaPhi * lambdaPsi

/-- A vector of the lattice: its value is 0 modulo ORDER_N. -/
def Int4.InLattice (v : Int4) : Prop := (orderN : Int) ∣ v.value

theorem Int4.value_subMul (v : Int4) (n : Nat) (b : Int4) : (v.subMul n b).value = v.value - b.value * n := by
  simp only [Int4.value, Int4.subMul]
  ring

theorem Int4.value_add (v b : Int4) : (v.add b).value = v.value + b.value := by
  simp only [Int4.value, Int4.add]
  ring

theorem Int4.value_scalar (k : Int) : (⟨k, 0, 0, 0⟩ : Int4).value = k := by
  simp only [Int4.value, zero_mul, add_zero]

/-! Taking away or adding a vector of the lattice keeps the value modulo ORDER_N. -/

theorem Int4.subMul_modEq (v : Int4) (n : Nat) {b : Int4} (hb : b.InLattice) :
    (v.subMul n b).value ≡ v.value [ZMOD orderN] := by
  rw [Int4.value_subMul, Int.modEq_iff_dvd, sub_sub_cancel]
  exact Dvd.dvd.mul_right hb n

theorem Int4.add_modEq (v : Int4) {b : Int4} (hb : b.InLattice) : (v.add b).value ≡ v.value [ZMOD orderN] := by
  rw [Int4.value_add, Int.modEq_iff_dvd, sub_add_cancel_left]
  exact (dvd_neg).2 hb

theorem basis1_inLattice : basis1.InLattice := by unfold Int4.InLattice; decide
theorem basis2_inLattice : basis2.InLattice := by unfold Int4.InLattice; decide
theorem basis3_inLattice : basis3.InLattice := by unfold Int4.InLattice; decide
theorem basis4_inLattice : basis4.InLattice := by unfold Int4.InLattice; decide
theorem correction_inLattice : correction.InLattice := by unfold Int4.InLattice; decide

/-- Every multiple of a basis vector, and CVEC, is a vector of the lattice. -/
theorem shiftedRest_modEq (k : Nat) : (shiftedRest k).value ≡ k [ZMOD orderN] := by
  rw [shiftedRest]
  calc Int4.value _
    _ ≡ _ [ZMOD orderN] := Int4.add_modEq _ correction_inLattice
    _ ≡ _ [ZMOD orderN] := Int4.subMul_modEq _ _ basis4_inLattice
    _ ≡ _ [ZMOD orderN] := Int4.subMul_modEq _ _ basis3_inLattice
    _ ≡ _ [ZMOD orderN] := Int4.subMul_modEq _ _ basis2_inLattice
    _ ≡ _ [ZMOD orderN] := Int4.subMul_modEq _ _ basis1_inLattice
    _ = k := Int4.value_scalar k

theorem decomposeInt_modEq (k : Nat) : (decomposeInt k).value ≡ k [ZMOD orderN] := by
  rw [decomposeInt_eq]
  split
  case isTrue heven => exact (Int4.add_modEq _ basis4_inLattice).trans (shiftedRest_modEq k)
  case isFalse hodd => exact shiftedRest_modEq k

/-! The lanes of Q. -/

/-- A lane in [0, 2^64) is read back from its 65 bits. -/
theorem toInt_ofInt_lane {x : Int} (h : 0 ≤ x ∧ x < 2 ^ 64) : (BitVec.ofInt 65 x).toInt = x := by
  rw [BitVec.toInt_eq_toNat_of_msb (ofInt_lane_msb h), toNat_ofInt_lane h]

theorem toQuad_toInt {v : Int4} (h : v.InBox) :
    v.toQuad.a1.toInt = v.x1 ∧ v.toQuad.a2.toInt = v.x2 ∧ v.toQuad.a3.toInt = v.x3 ∧ v.toQuad.a4.toInt = v.x4 := by
  obtain ⟨h1, h2, h3, h4⟩ := h
  exact ⟨toInt_ofInt_lane h1, toInt_ofInt_lane h2, toInt_ofInt_lane h3, toInt_ofInt_lane h4⟩

theorem exec_decomp (a : KReg) (s : State) : exec (.decomp a) s = succeed (s.wrQ (decompose (s.rdK a))) := rfl

theorem succeed_wrQ (s : State) (q : Quad) :
    succeed (s.wrQ q) = .next { s with q := q, qv := true, result := 0, running := none } := rfl

/-- Settles O46: the integers of R195 keep the value k modulo ORDER_N (decomposeInt_modEq), lie in the box
(decomposeInt_inBox) and start with an odd one (decomposeInt_odd); the 65 bits of a lane hold them exactly. -/
theorem decompositionIsCongruentAndShort : Obligations.DecompositionIsCongruentAndShort := by
  intro s a
  refine ⟨packR_operands_toNat (by decide) (by omega), _, (exec_decomp a s).trans (succeed_wrQ s _), ?_⟩
  have hbox := decomposeInt_inBox (s.rdK a).isLt
  obtain ⟨h1, h2, h3, h4⟩ := toQuad_toInt hbox
  rw [decompose, h1, h2, h3, h4]
  obtain ⟨b1, b2, b3, b4⟩ := hbox
  exact ⟨decomposeInt_modEq _, b1, b2, b3, b4, decomposeInt_odd _⟩

end Sys2Proof.Machine
end

section
/-! The recoding: the digits of a list, least significant first, sum up to each lane (44_scalar.md R198, R199). -/

namespace Sys2Proof.Machine

/-- The sum over a list of digits, digit 0 first: s_i * u(index_i) * 2^i. -/
def digitListSum (u : Fin 8 → Nat) : List Digit → Int
  | [] => 0
  | d :: rest => digitSign d * (u d.index : Int) + 2 * digitListSum u rest

theorem digitListSum_eq_sum (u : Fin 8 → Nat) (l : List Digit) :
    digitListSum u l = ∑ i : Fin l.length, digitSign l[i] * (u l[i].index : Int) * 2 ^ i.val := by
  induction l with
  | nil => rfl
  | cons d rest ih =>
    rw [digitListSum, ih, Finset.mul_sum]
    simp only [List.length_cons]
    rw [Fin.sum_univ_succ]
    congr 1
    · simp
    · refine Finset.sum_congr rfl fun i _ => ?_
      simp only [Fin.getElem_fin, Fin.val_succ, List.getElem_cons_succ, pow_succ']
      ring

/-- The digits of recodeDigits are the list that recodeFrom makes. -/
theorem digitSum_recodeDigits (u : Fin 8 → Nat) (a1 a2 a3 a4 : Nat) :
    digitSum (recodeDigits a1 a2 a3 a4) u = digitListSum u (recodeFrom a1 64 0 a2 a3 a4) := by
  rw [digitListSum_eq_sum]
  refine Fintype.sum_equiv (finCongr (recodeFrom_length a1 64 0 a2 a3 a4).symm) _ _ fun i => ?_
  simp [recodeDigits]

/-! The lane a1: the sum of the signs. -/

theorem digitSign_bit (c : Nat) (ix : Fin 8) : digitSign ⟨decide (c % 2 = 0), ix⟩ = 2 * (c % 2 : Nat) - 1 := by
  by_cases hbit : c % 2 = 0
  · simp only [digitSign, decide_eq_true hbit, if_true]
    omega
  · simp only [digitSign, decide_eq_false hbit, Bool.false_eq_true, if_false]
    omega

/-- The remaining digits stand for the remaining bits of a1, the lowest one read as 1: the sign of digit i is bit i + 1
of a1. -/
theorem digitListSum_signs (a1 n i r2 r3 r4 : Nat) (h : a1 >>> (i + 1) < 2 ^ n) :
    digitListSum (fun _ => 1) (recodeFrom a1 n i r2 r3 r4) = 2 * (a1 >>> (i + 1) : Nat) + 1 := by
  induction n generalizing i r2 r3 r4 with
  | zero =>
    have hzero : a1 >>> (i + 1) = 0 := Nat.lt_one_iff.1 h
    rw [hzero]
    rfl
  | succ n ih =>
    have hnext : a1 >>> (i + 1 + 1) = a1 >>> (i + 1) / 2 := Nat.shiftRight_succ a1 (i + 1)
    have hrest : a1 >>> (i + 1 + 1) < 2 ^ n := by
      rw [hnext]
      exact Nat.div_lt_of_lt_mul (pow_succ' 2 n ▸ h)
    rw [recodeFrom, digitListSum, ih _ _ _ _ hrest, hnext, digitSign_bit]
    generalize a1 >>> (i + 1) = c
    omega

/-! The lanes a2, a3 and a4: the bits of the index. -/

theorem digitIndex_bits {x y z : Nat} (hx : x ≤ 1) (hy : y ≤ 1) (hz : z ≤ 1) :
    (digitIndex x y z).val % 2 = x ∧ (digitIndex x y z).val / 2 % 2 = y ∧ (digitIndex x y z).val / 4 = z := by
  have hval : (digitIndex x y z).val = x + 2 * y + 4 * z := Nat.mod_eq_of_lt (by omega)
  omega

/-- A lane is its digit and twice what remains of it: after a negative digit the remainder is rounded up. -/
theorem digitSign_laneNext (neg : Bool) (ix : Fin 8) (r : Nat) :
    digitSign ⟨neg, ix⟩ * (r % 2 : Nat) + 2 * (laneNext r neg : Nat) = r := by
  cases neg
  · simp only [digitSign, laneNext, Bool.false_eq_true, if_false]
    omega
  · simp only [digitSign, laneNext, if_true]
    omega

theorem laneNext_le {r n : Nat} (h : r ≤ 2 ^ (n + 1)) (neg : Bool) : laneNext r neg ≤ 2 ^ n := by
  rw [laneNext]
  split <;> omega

/-- Every remainder is at most 2^n with n digits before the top one to come, so the top digit takes it whole. -/
theorem digitListSum_bits (a1 n i r2 r3 r4 : Nat) (h2 : r2 ≤ 2 ^ n) (h3 : r3 ≤ 2 ^ n) (h4 : r4 ≤ 2 ^ n) :
    digitListSum (fun u => u.val % 2) (recodeFrom a1 n i r2 r3 r4) = r2
      ∧ digitListSum (fun u => u.val / 2 % 2) (recodeFrom a1 n i r2 r3 r4) = r3
      ∧ digitListSum (fun u => u.val / 4) (recodeFrom a1 n i r2 r3 r4) = r4 := by
  induction n generalizing i r2 r3 r4 with
  | zero =>
    obtain ⟨b2, b3, b4⟩ := digitIndex_bits h2 h3 h4
    simp [recodeFrom, digitListSum, digitSign, b2, b3, b4]
  | succ n ih =>
    have hrem : ∀ r, r % 2 ≤ 1 := fun r => by omega
    obtain ⟨b2, b3, b4⟩ := digitIndex_bits (hrem r2) (hrem r3) (hrem r4)
    rw [recodeFrom]
    generalize decide (a1 >>> (i + 1) % 2 = 0) = neg
    obtain ⟨s2, s3, s4⟩ := ih (i + 1) _ _ _ (laneNext_le h2 neg) (laneNext_le h3 neg) (laneNext_le h4 neg)
    simp only [digitListSum, b2, b3, b4, s2, s3, s4, digitSign_laneNext, and_self]

/-! From Q to the digits. -/

theorem lane_nonneg_iff (a : Lane) : 0 ≤ a.toInt ↔ a.msb = false := by
  rw [BitVec.msb_eq_toInt, decide_eq_false_iff_not, Int.not_lt]

theorem lane_bounds_of_nonneg {a : Lane} (h : 0 ≤ a.toInt) : a.toNat < 2 ^ 64 ∧ (a.toNat : Int) = a.toInt :=
  have hmsb := (lane_nonneg_iff a).1 h
  ⟨(lane_msb_eq_false_iff a).1 hmsb, (BitVec.toInt_eq_toNat_of_msb hmsb).symm⟩

/-- Non-negative lanes and an odd a1 are the domain of the recoding (44_scalar.md R199). -/
theorem recodable_of_lanes {q : Quad} (h1 : 0 ≤ q.a1.toInt) (h2 : 0 ≤ q.a2.toInt) (h3 : 0 ≤ q.a3.toInt)
    (h4 : 0 ≤ q.a4.toInt) (hodd : q.a1.toInt % 2 = 1) : q.recodable = true := by
  have hlow : q.a1.getLsbD 0 = true := by
    obtain ⟨-, hnat⟩ := lane_bounds_of_nonneg h1
    rw [BitVec.getLsbD, Nat.testBit_zero, decide_eq_true_eq]
    omega
  rw [lane_nonneg_iff] at h1 h2 h3 h4
  simp [Quad.recodable, Quad.nonneg, h1, h2, h3, h4, hlow]

/-- The four identities of 44_scalar.md R199. -/
theorem recode_sums {q : Quad} (h1 : 0 ≤ q.a1.toInt) (h2 : 0 ≤ q.a2.toInt) (h3 : 0 ≤ q.a3.toInt)
    (h4 : 0 ≤ q.a4.toInt) (hodd : q.a1.toInt % 2 = 1) :
    digitSum (recode q) (fun _ => 1) = q.a1.toInt ∧ digitSum (recode q) (fun u => u.val % 2) = q.a2.toInt
      ∧ digitSum (recode q) (fun u => u.val / 2 % 2) = q.a3.toInt
      ∧ digitSum (recode q) (fun u => u.val / 4) = q.a4.toInt := by
  rw [recode, if_pos (recodable_of_lanes h1 h2 h3 h4 hodd)]
  simp only [digitSum_recodeDigits]
  obtain ⟨l1, e1⟩ := lane_bounds_of_nonneg h1
  obtain ⟨l2, e2⟩ := lane_bounds_of_nonneg h2
  obtain ⟨l3, e3⟩ := lane_bounds_of_nonneg h3
  obtain ⟨l4, e4⟩ := lane_bounds_of_nonneg h4
  have hshift : q.a1.toNat >>> (0 + 1) = q.a1.toNat / 2 := Nat.shiftRight_succ q.a1.toNat 0
  have hsigns := digitListSum_signs q.a1.toNat 64 0 q.a2.toNat q.a3.toNat q.a4.toNat (by omega)
  rw [← e2, ← e3, ← e4]
  refine ⟨?_, digitListSum_bits q.a1.toNat 64 0 _ _ _ l2.le l3.le l4.le⟩
  rw [hsigns, hshift]
  omega

/-! The command. -/

theorem exec_recode_notReady {s : State} (h : s.qv = false) : exec .recode s = fail .recode .notReady s := by
  rw [exec, execRecode, if_pos h]

theorem exec_recode {s : State} (h : s.qv = true) : exec .recode s = succeed (s.wrDig (recode s.q)) := by
  rw [exec, execRecode, if_neg (ne_false_of_eq_true h)]

theorem succeed_wrDig (s : State) (dg : Vector Digit 65) :
    succeed (s.wrDig dg) = .next { s with dig := dg, dv := true, result := 0, running := none } := rfl

/-- Settles O47: recode_sums for the four lanes, recode_topSigns for the two top digits. -/
theorem recodingRepresentsTheLanes : Obligations.RecodingRepresentsTheLanes := by
  intro s
  refine ⟨packR_operands_toNat (by decide) (by decide), fun hqv => ?notReady, fun hqv => ⟨recode s.q,
    (exec_recode hqv).trans (succeed_wrDig s _), fun h1 h2 h3 h4 hodd => ?sums⟩⟩
  case notReady => exact (exec_recode_notReady hqv).trans (fail_recoverable _ s (by decide))
  case sums =>
    obtain ⟨s1, s2, s3, s4⟩ := recode_sums h1 h2 h3 h4 hodd
    exact ⟨s1, s2, s3, s4, recode_topSigns (recodable_of_lanes h1 h2 h3 h4 hodd)⟩

end Sys2Proof.Machine
end

section
/-! The bytes of the quad and of the digits: QTOB and DTOB (44_scalar.md R197, R200, 20_memory.md R64, R65). -/

namespace Sys2Proof.Machine

/-! A part of a string that was written. -/

/-- MemRead of the k bytes at a + i is cut out of MemRead of a longer string. -/
theorem Memory.readLE_slice (m : Memory) (a i k j : Nat) :
    Memory.readLE m (a + i) k = Memory.readLE m a (i + k + j) / 256 ^ i % 256 ^ k := by
  rw [Memory.readLE_add, Memory.readLE_add, Nat.pow_add, Nat.mul_assoc, Nat.add_assoc, ← Nat.mul_add,
    Nat.add_mul_div_left _ _ (by positivity), Nat.div_eq_of_lt (Memory.readLE_lt m a i), Nat.zero_add,
    Nat.add_mul_mod_self_left, Nat.mod_eq_of_lt (Memory.readLE_lt m (a + i) k)]

/-- The k bytes at i of a string of n bytes just written are bytes i to i + k - 1 of its number. -/
theorem State.memValue_putString (s : State) {n i k : Nat} (v : Nat) (h : i + k ≤ n) :
    memValue (s.putString n v).buf i k = v / 256 ^ i % 256 ^ k := by
  obtain ⟨j, rfl⟩ := Nat.exists_eq_add_of_le h
  have hslice := Memory.readLE_slice (s.putString (i + k + j) v).buf 0 i k j
  have hwhole : Memory.readLE (s.putString (i + k + j) v).buf 0 (i + k + j) = v % 256 ^ (i + k + j) :=
    Memory.readLE_writeLE s.buf 0 _ v
  rw [Nat.zero_add, hwhole, Nat.pow_add, Nat.pow_add, Nat.mul_assoc, Nat.mod_mul_right_div_self,
    Nat.mod_mod_of_dvd _ (Nat.dvd_mul_right _ _)] at hslice
  rw [← Memory.readLE_eq_sum, hslice]

/-! The numbers that are written. -/

/-- A lane's 128 bits are its two's complement (20_memory.md R64). -/
theorem laneBytes_eq (a : Lane) : (laneBytes a : Int) = a.toInt % 2 ^ 128 := by
  rw [laneBytes, BitVec.signExtend, BitVec.toNat_ofInt]
  exact Int.toNat_of_nonneg (Int.emod_nonneg _ (by decide))

/-- Each lane of the quad's 64 bytes (20_memory.md R64). -/
theorem quadBytes_lanes (q : Quad) :
    quadBytes q / 256 ^ 0 % 256 ^ 16 = laneBytes q.a1 ∧ quadBytes q / 256 ^ 16 % 256 ^ 16 = laneBytes q.a2
      ∧ quadBytes q / 256 ^ 32 % 256 ^ 16 = laneBytes q.a3 ∧ quadBytes q / 256 ^ 48 % 256 ^ 16 = laneBytes q.a4 := by
  have hlt : ∀ a : Lane, laneBytes a < 2 ^ 128 := fun a => (a.signExtend 128).isLt
  have h1 := hlt q.a1
  have h2 := hlt q.a2
  have h3 := hlt q.a3
  have h4 := hlt q.a4
  rw [quadBytes]
  omega

theorem digitByte_eq (d : Digit) : digitByte d = 128 * d.neg.toNat + d.index.val := by
  rw [digitByte]
  cases d.neg <;> rfl

/-- Byte i of the number that is written is the byte of digit i (20_memory.md R65). -/
theorem digitsBytes_byte (l : List Digit) {i : Nat} (h : i < l.length) :
    digitsBytes l / 256 ^ i % 256 = digitByte l[i] := by
  induction l generalizing i with
  | nil => exact absurd h (Nat.not_lt_zero i)
  | cons d rest ih =>
    have hd : digitByte d < 256 := by
      rw [digitByte]
      split <;> omega
    rw [digitsBytes]
    cases i with
    | zero =>
      rw [Nat.pow_zero, Nat.div_one, Nat.add_mul_mod_self_left, Nat.mod_eq_of_lt hd]
      rfl
    | succ i =>
      have hrest : (digitByte d + 256 * digitsBytes rest) / 256 = digitsBytes rest := by omega
      rw [Nat.pow_succ', ← Nat.div_div_eq_div_mul, hrest, ih (Nat.lt_of_succ_lt_succ h)]
      rfl

/-! The commands, by their outcome. -/

theorem exec_qtob_notReady {s : State} (h : s.qv = false) : exec .qtob s = fail .qtob .notReady s := by
  rw [exec, execQtob, if_pos h]

theorem exec_qtob {s : State} (h : s.qv = true) : exec .qtob s = succeed (s.putString 64 (quadBytes s.q)) := by
  rw [exec, execQtob, if_neg (ne_false_of_eq_true h)]

theorem exec_dtob_notReady {s : State} (h : s.dv = false) : exec .dtob s = fail .dtob .notReady s := by
  rw [exec, execDtob, if_pos h]

theorem exec_dtob {s : State} (h : s.dv = true) :
    exec .dtob s = succeed (s.putString 65 (digitsBytes s.dig.toList)) := by
  rw [exec, execDtob, if_neg (ne_false_of_eq_true h)]

/-- The lanes in BUF after QTOB. -/
theorem memValue_quad (s : State) {i : Nat} {a : Lane} (hi : i + 16 ≤ 64)
    (h : quadBytes s.q / 256 ^ i % 256 ^ 16 = laneBytes a) :
    (memValue (s.putString 64 (quadBytes s.q)).buf i 16 : Int) = a.toInt % 2 ^ 128 := by
  rw [State.memValue_putString s _ hi, h, laneBytes_eq]

/-- The digits in BUF after DTOB. -/
theorem read_digits (s : State) (i : Fin 65) :
    (Memory.read (s.putString 65 (digitsBytes s.dig.toList)).buf i).toNat
      = 128 * s.dig[i].neg.toNat + s.dig[i].index.val := by
  obtain ⟨hbytes, -⟩ := State.putString_wrote s 65 (digitsBytes s.dig.toList)
  have hlen : i.val < s.dig.toList.length := by
    rw [Vector.length_toList]
    exact i.isLt
  have hbyte := digitsBytes_byte s.dig.toList hlen
  rw [Vector.getElem_toList, digitByte_eq] at hbyte
  rw [hbytes i i.isLt, BitVec.toNat_ofNat]
  exact hbyte

/-- Settles O48: QTOB and DTOB are putStrings; a lane is a slice of the number written (quadBytes_lanes), a digit one
byte of it (digitsBytes_byte). -/
theorem quadAndDigitBytes : Obligations.QuadAndDigitBytes := by
  intro s
  refine ⟨⟨packR_operands_toNat (by decide) (by decide), packR_operands_toNat (by decide) (by decide)⟩,
    fun hqv => ?quadNotReady, fun hdv => ?digitsNotReady,
    fun hqv => ⟨_, (exec_qtob hqv).trans (succeed_putString s 64 _), ?quad⟩,
    fun hdv => ⟨_, (exec_dtob hdv).trans (succeed_putString s 65 _), read_digits s, ?digitsFrame⟩⟩
  case quadNotReady => exact (exec_qtob_notReady hqv).trans (fail_recoverable _ s (by decide))
  case digitsNotReady => exact (exec_dtob_notReady hdv).trans (fail_recoverable _ s (by decide))
  case quad =>
    obtain ⟨h1, h2, h3, h4⟩ := quadBytes_lanes s.q
    obtain ⟨-, hframe⟩ := State.putString_wrote s 64 (quadBytes s.q)
    exact ⟨memValue_quad s (by decide) h1, memValue_quad s (by decide) h2, memValue_quad s (by decide) h3,
      memValue_quad s (by decide) h4, hframe⟩
  case digitsFrame =>
    obtain ⟨-, hframe⟩ := State.putString_wrote s 65 (digitsBytes s.dig.toList)
    exact hframe

end Sys2Proof.Machine
end

section
/-! Tuples of one affine point, each the other scaled, and what the point operations make of them (43_curvepoint.md
R161). -/

namespace Sys2Proof.Machine

/-- Q's tuple is P's, scaled. -/
def Proportional (P Q : Point) : Prop := ∃ k ≠ 0, Q.val = P.val.scale k

namespace Proportional

variable {P P' Q Q' R : Point}

theorem refl (P : Point) : Proportional P P := by
  have := GFp2_isDomain
  exact ⟨1, one_ne_zero, by simp only [Tuple.scale, one_mul]⟩

theorem trans (h : Proportional P Q) (h' : Proportional Q R) : Proportional P R := by
  have := GFp2_isDomain
  obtain ⟨k, hk, hQ⟩ := h
  obtain ⟨l, hl, hR⟩ := h'
  refine ⟨l * k, mul_ne_zero hl hk, ?_⟩
  rw [hR, hQ]
  simp only [Tuple.scale, mul_assoc]

/-- ~ does not tell scaled tuples apart. -/
theorem same_iff (hP : Proportional P P') (hQ : Proportional Q Q') :
    sameAffine P' Q' = true ↔ sameAffine P Q = true := by
  obtain ⟨k, hk, hP'⟩ := hP
  obtain ⟨l, hl, hQ'⟩ := hQ
  rw [sameAffine_iff, sameAffine_iff, hP', hQ', Tuple.scale_same_scale_iff hk hl]

theorem same (h : Proportional P Q) : sameAffine P Q = true := by
  obtain ⟨k, -, hQ⟩ := h
  rw [sameAffine_iff, hQ]
  exact Tuple.same_scale k P.val

theorem good (h : Proportional P Q) (hQ : PointCanonical Q) (hP : GoodPoint P) : GoodPoint Q := by
  obtain ⟨k, hk, hval⟩ := h
  rw [goodPoint_iff hQ, hval, Tuple.scale_valid_iff hk]
  exact hP.valid

end Proportional

theorem RespectsScaling.proportional {F : Point → Point} (hF : RespectsScaling F) {P Q : Point}
    (h : Proportional P Q) : Proportional (F P) (F Q) := by
  obtain ⟨k, hk, hval⟩ := h
  exact hF hk hval

/-! The coordinates of PADD in each operand, and those of PDBL, are homogeneous. -/

theorem padd_respectsScaling (R : Point) : RespectsScaling (fun P => padd P R) := by
  intro P Q k hk h
  have := GFp2_isDomain
  obtain ⟨hX, hY, hZ, hT⟩ := Tuple.ext_iff.1 h
  simp only [Tuple.scale, Point.val_X, Point.val_Y, Point.val_Z, Point.val_T] at hX hY hZ hT
  refine ⟨k ^ 2, pow_ne_zero 2 hk, Tuple.ext ?_ ?_ ?_ ?_⟩ <;>
  · simp only [padd, Point.val, Tuple.scale, val_emul, val_esub, val_eadd, val_edouble, hX, hY, hZ, hT]
    ring

theorem pdbl_respectsScaling : RespectsScaling pdbl := by
  intro P Q k hk h
  have := GFp2_isDomain
  obtain ⟨hX, hY, hZ, -⟩ := Tuple.ext_iff.1 h
  simp only [Tuple.scale, Point.val_X, Point.val_Y, Point.val_Z] at hX hY hZ
  refine ⟨k ^ 4, pow_ne_zero 4 hk, Tuple.ext ?_ ?_ ?_ ?_⟩ <;>
  · simp only [pdbl, Point.val, Tuple.scale, val_emul, val_esub, val_eadd, val_eneg, val_esq, val_edouble, hX, hY, hZ]
    ring

theorem pneg_respectsScaling : RespectsScaling pneg := by
  intro P Q k hk h
  obtain ⟨hX, hY, hZ, hT⟩ := Tuple.ext_iff.1 h
  simp only [Tuple.scale, Point.val_X, Point.val_Y, Point.val_Z, Point.val_T] at hX hY hZ hT
  refine ⟨k, hk, Tuple.ext ?_ hY hZ ?_⟩
  · simp only [pneg, Point.val, Tuple.scale, val_eneg, hX, mul_neg]
  · simp only [pneg, Point.val, Tuple.scale, val_eneg, hT, mul_neg]

theorem Proportional.padd_left {P P' : Point} (h : Proportional P P') (Q : Point) :
    Proportional (Machine.padd P Q) (Machine.padd P' Q) :=
  RespectsScaling.proportional (padd_respectsScaling Q) h

theorem Proportional.padd {P P' Q Q' : Point} (hP : Proportional P P') (hQ : Proportional Q Q') :
    Proportional (Machine.padd P Q) (Machine.padd P' Q') := by
  have hright := hQ.padd_left P'
  rw [padd_comm Q P', padd_comm Q' P'] at hright
  exact (hP.padd_left Q).trans hright

/-! The tuples of O: (0, 1, 1, 0), scaled. -/

/-- P is a valid tuple of O, canonical or not. -/
abbrev IsIdentity (P : Point) : Prop := Proportional Point.neutral P

theorem isIdentity_of_same {P : Point} (hP : GoodPoint P) (h : sameAffine P Point.neutral = true) : IsIdentity P :=
  ⟨P.Z.val, hP.Z_val_ne_zero, val_of_same_neutral hP h⟩

theorem RespectsScaling.isIdentity {F : Point → Point} (hF : RespectsScaling F) (hO : IsIdentity (F Point.neutral))
    {P : Point} (hP : IsIdentity P) : IsIdentity (F P) :=
  hO.trans (hF.proportional hP)

namespace IsIdentity

variable {P Q : Point}

theorem Z_ne_ezero (hP : IsIdentity P) : P.Z ≠ ezero := by
  obtain ⟨k, hk, hval⟩ := hP
  exact scaled_Z_ne_ezero hk hval neutral_good.1.2.2.1 neutral_good.Z_ne_ezero

theorem same (hP : IsIdentity P) : sameAffine P Point.neutral = true :=
  (Proportional.same_iff hP (Proportional.refl _)).2 (Proportional.refl _).same

theorem padd (hP : IsIdentity P) (hQ : IsIdentity Q) : IsIdentity (padd P Q) := by
  have hO : IsIdentity (Machine.padd Point.neutral Point.neutral) :=
    isIdentity_of_same (neutral_good.padd neutral_good) (padd_neutral_same neutral_good)
  exact hO.trans (Proportional.padd hP hQ)

/-- A tuple of O added to a point leaves the point. -/
theorem padd_same (hP : IsIdentity P) (hQ : GoodPoint Q) : sameAffine (Machine.padd P Q) Q = true := by
  rw [(hP.padd_left Q).same_iff (Proportional.refl Q), padd_comm]
  exact padd_neutral_same hQ

theorem pdbl (hP : IsIdentity P) : IsIdentity (pdbl P) :=
  pdbl_respectsScaling.isIdentity (isIdentity_of_same neutral_good.pdbl.1 (by decide +kernel)) hP

theorem pneg (hP : IsIdentity P) : IsIdentity (pneg P) :=
  pneg_respectsScaling.isIdentity (isIdentity_of_same neutral_good.pneg (by decide +kernel)) hP

theorem phi (hP : IsIdentity P) : IsIdentity (phi P) :=
  phi_respectsScaling.isIdentity (isIdentity_of_same (by decide +kernel) phi_neutral.2) hP

theorem psi (hP : IsIdentity P) : IsIdentity (psi P) :=
  psi_respectsScaling.isIdentity (isIdentity_of_same (by decide +kernel) psi_neutral.2) hP

theorem notExceptional (hP : IsIdentity P) : NotExceptional P :=
  ⟨hP.phi.Z_ne_ezero, hP.psi.Z_ne_ezero, hP.phi.psi.Z_ne_ezero⟩

end IsIdentity

end Sys2Proof.Machine
end

section
/-! Double-and-add: the first product of DSMULG (45_multiplier.md R228). -/

namespace Sys2Proof.Machine

variable {P : Point}

theorem multiple_double (P : Point) (bits n : Nat) : multiple P (bits + 1) (2 * n) = pdbl (multiple P bits n) := by
  rw [multiple_succ, if_neg (by omega), Nat.mul_div_cancel_left n two_pos]

theorem multiple_double_add_one (P : Point) (bits n : Nat) :
    multiple P (bits + 1) (2 * n + 1) = padd (pdbl (multiple P bits n)) P := by
  rw [multiple_succ, if_pos (by omega), show (2 * n + 1) / 2 = n by omega]

theorem multiple_good (hP : GoodPoint P) (bits n : Nat) : GoodPoint (multiple P bits n) := by
  induction bits generalizing n with
  | zero => exact neutral_good
  | succ bits ih =>
    have hdouble := (ih (n / 2)).pdbl.1
    rw [multiple_succ]
    split
    · exact hdouble.padd hP
    · exact hdouble

theorem multiple_zero (P : Point) (bits : Nat) : IsIdentity (multiple P bits 0) := by
  induction bits with
  | zero => exact Proportional.refl _
  | succ bits ih => exact multiple_double P bits 0 ▸ ih.pdbl

theorem multiple_one_same (hP : GoodPoint P) (bits : Nat) : sameAffine (multiple P (bits + 1) 1) P = true :=
  multiple_double_add_one P bits 0 ▸ (multiple_zero P bits).pdbl.padd_same hP

/-- A leading zero bit of n doubles O once more, which scales the tuple of [n]P and no more. -/
theorem multiple_succ_proportional (P : Point) {bits n : Nat} (hn : n < 2 ^ bits) :
    Proportional (multiple P bits n) (multiple P (bits + 1) n) := by
  induction bits generalizing n with
  | zero =>
    obtain rfl : n = 0 := Nat.lt_one_iff.1 hn
    exact multiple_zero P 1
  | succ bits ih =>
    have hdouble := pdbl_respectsScaling.proportional (ih (n := n / 2) (by omega))
    rw [multiple_succ P bits, multiple_succ P (bits + 1)]
    split
    · exact hdouble.padd_left P
    · exact hdouble

/-- Settles O59: with 256 bits [2n]P is the double of what n gives with 255 bits, which is the same point
(multiple_succ_proportional); [0]P is a tuple of O whatever the bits (multiple_zero). -/
theorem multipleIsDoubleAndAdd : Obligations.MultipleIsDoubleAndAdd := by
  intro P hP
  refine ⟨fun n _ => multiple_good hP 256 n, (multiple_zero P 256).same, multiple_one_same hP 255, fun n hn => ?_⟩
  have hdouble : Proportional (pdbl (multiple P 255 n)) (pdbl (multiple P 256 n)) :=
    pdbl_respectsScaling.proportional (multiple_succ_proportional P hn)
  have heven : multiple P 256 (2 * n) = pdbl (multiple P 255 n) := multiple_double P 255 n
  have hodd : multiple P 256 (2 * n + 1) = padd (pdbl (multiple P 255 n)) P := multiple_double_add_one P 255 n
  rw [heven, hodd]
  exact ⟨hdouble.same, (hdouble.padd_left P).same⟩

end Sys2Proof.Machine
end

section
/-! The table and the commands that read it (45_multiplier.md R220 to R223). -/

namespace Sys2Proof.Machine

/-- The number of a format I word (30_encoding.md R100). -/
theorem packI_toNat {op rd imm : Nat} (hop : op < 256) (hrd : rd < 16) (himm : imm < 256) :
    (packI op rd imm).toNat = wordI op rd imm := by
  rw [packI, BitVec.toNat_ofNat]
  exact Nat.mod_eq_of_lt (by omega)

theorem buildTable_of_notExceptional {P : Point} (h : NotExceptional P) :
    buildTable P = some (tableEntries P (phi P) (psi P) (psi (phi P))) :=
  buildTable_some.2 ⟨h, rfl⟩

theorem exec_tbuild {a : PReg} {s : State} {tb : Vector Point 8} (h : buildTable (s.rdP a) = some tb) :
    exec (.tbuild a) s = succeed (s.wrT tb) := by
  rw [exec, execTbuild_some h]

theorem exec_trd_range (d : PReg) {u : BitVec 8} (s : State) (h : 7 < u.toNat) :
    exec (.trd d u) s = fail (.trd d u) .illegalCommand s := by
  rw [exec, execTrd, dif_neg (by omega)]

theorem exec_trd_notReady (d : PReg) {u : BitVec 8} {s : State} (hu : u.toNat ≤ 7) (htv : s.tv = false) :
    exec (.trd d u) s = fail (.trd d u) .notReady s := by
  rw [exec, execTrd, dif_pos (by omega), if_pos htv]

theorem exec_trd (d : PReg) {u : BitVec 8} {s : State} (hu : u.toNat < 8) (htv : s.tv = true) :
    exec (.trd d u) s = succeed (s.wrP d s.t[u.toNat]) := by
  rw [exec, execTrd, dif_pos hu, if_neg (ne_false_of_eq_true htv)]
  rfl

theorem exec_tsel_range (d : PReg) {i : BitVec 8} (s : State) (h : 64 < i.toNat) :
    exec (.tsel d i) s = fail (.tsel d i) .illegalCommand s := by
  rw [exec, execTsel, dif_neg (by omega)]

theorem exec_tsel_notReady (d : PReg) {i : BitVec 8} {s : State} (hi : i.toNat ≤ 64)
    (hv : s.tv = false ∨ s.dv = false) : exec (.tsel d i) s = fail (.tsel d i) .notReady s := by
  rw [exec, execTsel, dif_pos (by omega), if_pos hv]

theorem exec_tsel (d : PReg) {i : BitVec 8} {n : Nat} {s : State} (hi : i.toNat = n) (hn : n < 65)
    (htv : s.tv = true) (hdv : s.dv = true) : exec (.tsel d i) s = succeed (s.wrP d (select s.t s.dig[n])) := by
  subst hi
  rw [exec, execTsel, dif_pos hn, if_neg (not_or.2 ⟨ne_false_of_eq_true htv, ne_false_of_eq_true hdv⟩)]

theorem succeed_wrT (s : State) (tb : Vector Point 8) :
    succeed (s.wrT tb) = .next { s with t := tb, tv := true, result := 0, running := none } := rfl

/-- Each entry is the point itself or an earlier entry plus one of the three others (45_multiplier.md R220). -/
theorem tableEntries_sums {P Pf Ps Psf : Point} {tb : Vector Point 8} (h : tableEntries P Pf Ps Psf = tb) :
    tb[0] = P ∧ tb[1] = padd tb[0] Pf ∧ tb[2] = padd tb[0] Ps ∧ tb[3] = padd tb[1] Ps ∧ tb[4] = padd tb[0] Psf
      ∧ tb[5] = padd tb[1] Psf ∧ tb[6] = padd tb[2] Psf ∧ tb[7] = padd tb[3] Psf := by
  subst h
  exact ⟨rfl, rfl, rfl, rfl, rfl, rfl, rfl, rfl⟩

/-- Settles O49: the table is built, and its additions are in the spec's order (tableEntries_sums). -/
theorem tableHoldsTheEightCombinations : Obligations.TableHoldsTheEightCombinations := by
  intro s a
  exact ⟨packR_operands_toNat (by decide) (by omega), fun hne => ⟨_,
    (exec_tbuild (buildTable_of_notExceptional hne)).trans (succeed_wrT s _), tableEntries_sums rfl⟩⟩

/-- Settles O50: the range of imm8 first, then the valid bits, as the branches of TRD and TSEL stand. -/
theorem tableEntriesAreRead : Obligations.TableEntriesAreRead := by
  refine ⟨fun s d u => ⟨packI_toNat (by decide) (by omega) u.isLt, fun hu => ?trdRange, fun hu htv => ?trdNotReady,
      fun hu htv => ?trd⟩,
    fun s d i => ⟨packI_toNat (by decide) (by omega) i.isLt, fun hi => ?tselRange, fun hi hv => ?tselNotReady,
      fun hi htv hdv => ?tsel⟩⟩
  case trdRange => exact (exec_trd_range d s hu).trans (fail_recoverable _ s (by decide))
  case trdNotReady => exact (exec_trd_notReady d hu htv).trans (fail_recoverable _ s (by decide))
  case trd => exact (exec_trd d hu htv).trans (succeed_wrP s d _)
  case tselRange => exact (exec_tsel_range d s hi).trans (fail_recoverable _ s (by decide))
  case tselNotReady => exact (exec_tsel_notReady d hi hv).trans (fail_recoverable _ s (by decide))
  case tsel => exact (exec_tsel d rfl hi htv hdv).trans (succeed_wrP s d _)

end Sys2Proof.Machine
end

section
/-! SMUL: the multiplication driven by hand, the sums of two products, and the multiples of O (45_multiplier.md R225
to R229). -/

namespace Sys2Proof.Machine

/-! The commands, by their outcome. -/

theorem smulval_of_notExceptional {P : Point} (h : NotExceptional P) (k : Scalar) : ∃ r, smulval k P = some r := by
  rw [smulval, buildTable_of_notExceptional h, Option.map_some]
  exact ⟨_, rfl⟩

section

variable {s : State} {a c : KReg} {b e : PReg} {r r1 r2 : Product}

theorem exec_smul (d : PReg) (h : smulval (s.rdK a) (s.rdP b) = some r) :
    exec (.smul d a b) s = succeed (s.wrProduct d r.A r) := by
  rw [exec, execSmul_some h]

theorem exec_dsmul (d : PReg) (h1 : smulval (s.rdK a) (s.rdP b) = some r1)
    (h2 : smulval (s.rdK c) (s.rdP e) = some r2) :
    exec (.dsmul d a b c e) s = succeed (s.wrProduct d (padd r1.A r2.A) r2) := by
  rw [exec, execDsmul_some h1 h2]

theorem exec_dsmulg (d : PReg) (c : KReg) (h : smulval (s.rdK a) (s.rdP b) = some r) :
    exec (.dsmulg d c a b) s = succeed (s.wrProduct d (padd (generatorMultiple (s.rdK c)) r.A) r).setGtv := by
  rw [exec, execDsmulg_some h]

end

theorem succeed_wrProduct (s : State) (d : PReg) (A : Point) (r : Product) :
    succeed (s.wrProduct d A r) = .next { s with
      p := s.p.set d A, q := r.q, dig := r.dig, t := r.t, qv := true, dv := true, tv := true, result := 0,
      running := none } := rfl

theorem succeed_wrProduct_setGtv (s : State) (d : PReg) (A : Point) (r : Product) :
    succeed (s.wrProduct d A r).setGtv = .next { s with
      p := s.p.set d A, q := r.q, dig := r.dig, t := r.t, gtv := true, qv := true, dv := true, tv := true, result := 0,
      running := none } := rfl

/-! The multiplication driven by hand (45_multiplier.md R226). -/

/-- A command that succeeds, and the rest of the sequence. -/
theorem execAll_succeed {i : Instr} {rest : List Instr} {s u : State} (h : exec i s = succeed u) :
    execAll (i :: rest) s = execAll rest u.complete := by
  rw [execAll_cons, h, succeed, andThen_next]

theorem point_set_same (p : Vector Point 4) (d : PReg) (A : Point) : (p.set d A)[d] = A := Vector.getElem_set_self _

/-- One turn writes P[d] and the spare register, and the point in P[d] is what the loop makes of the one before. -/
theorem execAll_turn {d x : PReg} (hx : x ≠ d) {n : Nat} (hn : n < 65) {t : State} (htv : t.tv = true)
    (hdv : t.dv = true) (rest : List Instr) :
    ∃ p : Vector Point 4, p[d] = loopStep t.t t.p[d] t.dig[n]
      ∧ execAll (.pdbl d d :: .tsel x (BitVec.ofNat 8 n) :: .padd d d x :: rest) t.complete
        = execAll rest ({ t with p := p } : State).complete := by
  have hi : (BitVec.ofNat 8 n).toNat = n := by
    rw [BitVec.toNat_ofNat]
    omega
  have htsel (A : Point) : exec (.tsel x (BitVec.ofNat 8 n)) (t.complete.wrP d A).complete
      = succeed ((t.complete.wrP d A).complete.wrP x (select t.t t.dig[n])) := exec_tsel x hi hn htv hdv
  have hdoubled (A S : Point) : ((t.complete.wrP d A).complete.wrP x S).complete.rdP d = A :=
    (State.rdP_wrP_other _ x d S hx.symm).trans (State.rdP_wrP_same t.complete d A)
  have hselected (A S : Point) : ((t.complete.wrP d A).complete.wrP x S).complete.rdP x = S :=
    State.rdP_wrP_same _ x S
  refine ⟨((t.p.set d (pdbl t.p[d])).set x (select t.t t.dig[n])).set d (loopStep t.t t.p[d] t.dig[n]),
    point_set_same _ d _, ?_⟩
  rw [execAll_succeed (exec_pdbl d d _), execAll_succeed (htsel _), execAll_succeed (exec_padd d d x _), hdoubled,
    hselected]
  rfl

/-- n turns by hand are the loop over the digits n - 1 down to 0. -/
theorem execAll_loopByHand {d x : PReg} (hx : x ≠ d) {n : Nat} (hn : n ≤ 65) {t : State} (htv : t.tv = true)
    (hdv : t.dv = true) :
    ∃ p : Vector Point 4, p[d] = (t.dig.toList.take n).reverse.foldl (loopStep t.t) t.p[d]
      ∧ execAll (loopByHand d x n) t.complete = .next ({ t with p := p } : State).complete := by
  induction n generalizing t with
  | zero => exact ⟨t.p, rfl, rfl⟩
  | succ n ih =>
    obtain ⟨p, hp, hturn⟩ := execAll_turn hx (Nat.lt_of_succ_le hn) htv hdv (loopByHand d x n)
    obtain ⟨p', hp', hrest⟩ := ih (Nat.le_of_succ_le hn) (t := { t with p := p }) htv hdv
    have hlen : n < t.dig.toList.length := by
      rw [Vector.length_toList]
      exact hn
    refine ⟨p', ?_, hturn.trans hrest⟩
    rw [hp', List.take_succ_eq_append_getElem hlen, List.reverse_append, List.reverse_singleton, List.singleton_append,
      List.foldl_cons, Vector.getElem_toList, ← hp]

/-- DECOMP, RECODE, TBUILD and TSEL of the top digit, which is never negated, put the side values of the product in
place and the loop's first entry in P[d]. -/
theorem execAll_preparation (d : PReg) {a : KReg} {b : PReg} {s : State} {r : Product}
    (h : smulval (s.rdK a) (s.rdP b) = some r) :
    execAll [.decomp a, .recode, .tbuild b, .tsel d 64] s
      = .next ((((s.wrQ r.q).wrDig r.dig).wrT r.t).wrP d r.t[r.dig[64].index]).complete := by
  obtain ⟨htable, hq, hdig, -⟩ := smulval_some h
  obtain ⟨htop, -⟩ : TopSigns r.dig := hdig ▸ recode_topSigns (decompose_recodable _)
  have hdecomp : exec (.decomp a) s = succeed (s.wrQ r.q) := hq ▸ exec_decomp a s
  have hrecode : exec .recode (s.wrQ r.q).complete = succeed ((s.wrQ r.q).complete.wrDig r.dig) := by
    rw [hdig, ← hq]
    exact exec_recode rfl
  have hfirst : select r.t r.dig[64] = r.t[r.dig[64].index] := if_neg (ne_true_of_eq_false htop)
  rw [execAll_succeed hdecomp, execAll_succeed hrecode,
    execAll_succeed (exec_tbuild (s := ((s.wrQ r.q).complete.wrDig r.dig).complete) htable),
    execAll_succeed (exec_tsel d rfl (by decide) rfl rfl), execAll_nil, ← hfirst]
  rfl

/-- Settles O51: after the four preparing commands (execAll_preparation) 64 turns by hand are SMUL's loop
(execAll_loopByHand), and nothing but P[d] and the spare register moves in them. -/
theorem multiplicationEqualsItsParts : Obligations.MultiplicationEqualsItsParts := by
  intro s d x a b
  refine ⟨packR_operands_toNat (by decide) (by omega), fun hx hne => ?_⟩
  obtain ⟨r, hr⟩ := smulval_of_notExceptional hne (s.rdK a)
  obtain ⟨-, -, -, hA⟩ := smulval_some hr
  obtain ⟨p, hp, hloop⟩ := execAll_loopByHand hx (n := 64) (by decide)
    (t := (((s.wrQ r.q).wrDig r.dig).wrT r.t).wrP d r.t[r.dig[64].index]) rfl rfl
  have hpd : p[d] = r.A := by
    rw [hp, hA, mulLoop]
    exact congrArg (List.foldl _ · _) (point_set_same s.p d _)
  have hrun := execAll_append [.decomp a, .recode, .tbuild b, .tsel d 64] (loopByHand d x 64) s
  rw [execAll_preparation d hr, andThen_next, hloop] at hrun
  refine ⟨_, hrun, rfl, rfl, rfl, rfl, ?_⟩
  rw [exec_smul d hr, succeed_wrProduct, ← hpd]
  rfl

/-! Two products. -/

/-- Settles O52: the three commands differ in the point that P[d] gets, and in GTV. -/
theorem doubleMultiplicationAddsTheProducts : Obligations.DoubleMultiplicationAddsTheProducts := by
  refine ⟨fun s d a b c e => ⟨packR_toNat (by decide) (fit_mk (by omega)), fun hb he => ?dsmul⟩,
    fun s d a b c => ⟨packR_toNat (by decide) (fit_mk (by omega)), fun hc => ?dsmulg⟩⟩
  case dsmul =>
    obtain ⟨r1, h1⟩ := smulval_of_notExceptional hb (s.rdK a)
    obtain ⟨r2, h2⟩ := smulval_of_notExceptional he (s.rdK c)
    refine ⟨_, _, (exec_smul d h1).trans (succeed_wrProduct s d _ r1),
      (exec_smul d h2).trans (succeed_wrProduct s d _ r2), rfl, rfl, ?_⟩
    rw [exec_dsmul d h1 h2, succeed_wrProduct, point_set_same, point_set_same]
  case dsmulg =>
    obtain ⟨r, h⟩ := smulval_of_notExceptional hc (s.rdK b)
    refine ⟨_, (exec_smul d h).trans (succeed_wrProduct s d _ r), rfl, ?_⟩
    rw [exec_dsmulg d a h, succeed_wrProduct_setGtv, generatorMultiple, State.rdK, point_set_same]

/-! Multiples of O. -/

theorem IsIdentity.tableEntries {P Pf Ps Psf : Point} (hP : IsIdentity P) (hf : IsIdentity Pf) (hs : IsIdentity Ps)
    (hsf : IsIdentity Psf) (u : Fin 8) : IsIdentity (tableEntries P Pf Ps Psf)[u] := by
  fin_cases u
  · exact hP
  · exact hP.padd hf
  · exact hP.padd hs
  · exact (hP.padd hf).padd hs
  · exact hP.padd hsf
  · exact (hP.padd hf).padd hsf
  · exact (hP.padd hs).padd hsf
  · exact ((hP.padd hf).padd hs).padd hsf

theorem select_isIdentity {tb : Vector Point 8} (h : ∀ u : Fin 8, IsIdentity tb[u]) (d : Digit) :
    IsIdentity (select tb d) := by
  rw [select]
  split
  · exact (h d.index).pneg
  · exact h d.index

/-- A loop over tuples of O stays at O, whatever the digits. -/
theorem mulLoop_isIdentity {tb : Vector Point 8} (h : ∀ u : Fin 8, IsIdentity tb[u]) (dg : Vector Digit 65) :
    IsIdentity (mulLoop tb dg) :=
  List.foldlRecOn _ _ (h _) fun _ hA _ _ => hA.pdbl.padd (select_isIdentity h _)

theorem smulval_isIdentity {k : Scalar} {P : Point} {r : Product} (hP : IsIdentity P) (h : smulval k P = some r) :
    IsIdentity r.A := by
  obtain ⟨htable, -, -, hA⟩ := smulval_some h
  obtain ⟨-, ht⟩ := buildTable_some.1 htable
  exact hA ▸ mulLoop_isIdentity (ht ▸ hP.tableEntries hP.phi hP.psi hP.phi.psi) _

/-- Settles O54: no valid tuple of O is exceptional (IsIdentity.notExceptional), and the eight entries, their negatives
and the loop stay at O (smulval_isIdentity). -/
theorem multipleOfIdentityIsIdentity : Obligations.MultipleOfIdentityIsIdentity := by
  intro s d a b hP hO
  have hid : IsIdentity (s.rdP b) := isIdentity_of_same hP hO
  obtain ⟨r, hr⟩ := smulval_of_notExceptional hid.notExceptional (s.rdK a)
  have hA : IsIdentity r.A := smulval_isIdentity hid hr
  have hgood : GoodPoint r.A := Proportional.good hA (smulval_legal hP.1 hr).1 neutral_good
  refine ⟨_, (exec_smul d hr).trans (succeed_wrProduct s d _ r), rfl, ?_⟩
  rw [point_set_same]
  exact ⟨hgood, hA.same⟩

end Sys2Proof.Machine
end

section
/-! Square roots in GF(p^2) (46_codec.md R251, R252). -/

namespace Sys2Proof.Machine

open Sys2Proof.Config (prime)

/-! Powers in GF(p^2). -/

/-- i^p = -i, as p = 3 modulo 4. -/
theorem GFp2_omega_pow_prime : (QuadraticAlgebra.omega : GFp2) ^ prime = -QuadraticAlgebra.omega := by
  have hodd : Odd ((prime - 1) / 2) := ⟨(prime - 3) / 4, by decide⟩
  have hprime : (QuadraticAlgebra.omega : GFp2) ^ prime = QuadraticAlgebra.omega ^ (2 * ((prime - 1) / 2) + 1) :=
    congrArg _ (by decide)
  rw [hprime, pow_succ, pow_mul, sq, GFp2_omega_mul_omega, hodd.neg_one_pow, neg_one_mul]

/-- Raising to the power p is conjugation: it is additive, keeps GF(p) and takes i to -i. -/
theorem GFp2_pow_prime (z : GFp2) : z ^ prime = star z := by
  have : Fact (Nat.Prime prime) := ⟨prime_isPrime⟩
  have : CharP GFp2 prime := charP_of_injective_algebraMap QuadraticAlgebra.algebraMap_injective prime
  obtain ⟨a, b⟩ := z
  rw [QuadraticAlgebra.mk_eq_add_smul_omega, add_pow_char, smul_pow, GFp2_omega_pow_prime, ← map_pow, ZMod.pow_card,
    ZMod.pow_card]
  refine QuadraticAlgebra.ext ?_ ?_
  · simp
  · simp

/-- Euler's criterion for the norm. -/
theorem norm_pow_half {z : GFp2} (hz : z ≠ 0) :
    QuadraticAlgebra.norm (z ^ ((prime - 1) / 2)) = 1 ∨ QuadraticAlgebra.norm (z ^ ((prime - 1) / 2)) = -1 := by
  have : Fact (Nat.Prime prime) := ⟨prime_isPrime⟩
  rw [map_pow, show (prime - 1) / 2 = prime / 2 by decide]
  exact ZMod.pow_div_two_eq_neg_one_or_one prime (mt norm_eq_zero_iff.1 hz)

/-- The norm of a square's power (p-1)/2 is a power p-1 of GF(p). -/
theorem norm_sq_pow_half {z : GFp2} (hz : z ≠ 0) : QuadraticAlgebra.norm ((z ^ 2) ^ ((prime - 1) / 2)) = 1 := by
  have : Fact (Nat.Prime prime) := ⟨prime_isPrime⟩
  rw [← pow_mul, show 2 * ((prime - 1) / 2) = prime - 1 by decide, map_pow]
  exact ZMod.pow_card_sub_one_eq_one (mt norm_eq_zero_iff.1 hz)

theorem star_mul_self_eq_neg_one_iff (z : GFp2) : star z * z = -1 ↔ QuadraticAlgebra.norm z = -1 := by
  rw [mul_comm, ← QuadraticAlgebra.algebraMap_norm_eq_mul_star, ← map_one (algebraMap (ZMod prime) GFp2), ← map_neg,
    QuadraticAlgebra.algebraMap_inj]

/-- For a of norm 1 other than -1, (1 + a)^(p-1) is the inverse of a: times 1 + a, both sides are 1 + conj(a). -/
theorem one_add_pow_half_sq_mul {a : GFp2} (hnorm : QuadraticAlgebra.norm a = 1) (ha : a ≠ -1) :
    ((1 + a) ^ ((prime - 1) / 2)) ^ 2 * a = 1 := by
  have := GFp2_isDomain
  have hne : 1 + a ≠ 0 := fun h => ha (eq_neg_of_add_eq_zero_right h)
  have hunit : a * star a = 1 := by rw [← QuadraticAlgebra.algebraMap_norm_eq_mul_star, hnorm, map_one]
  have hpow : ((1 + a) ^ ((prime - 1) / 2)) ^ 2 * (1 + a) = 1 + star a := by
    rw [← pow_mul, ← pow_succ, show (prime - 1) / 2 * 2 + 1 = prime by decide, GFp2_pow_prime, star_add, star_one]
  refine mul_right_cancel₀ hne ?_
  linear_combination a * hpow + hunit

/-! The candidate's two powers of w. -/

theorem val_epow (u : Fe2) {n : Nat} (hn : n < 2 ^ 127) : (epow u n).val = u.val ^ n :=
  powBy_map Fe2.val val_eone val_emul u hn

/-- alpha = w^((p-1)/2), as the candidate computes it (46_codec.md R252). -/
def rootAlpha (w : Fe2) : Fe2 := emul (epow w ((prime - 3) / 4)) (emul (epow w ((prime - 3) / 4)) w)

/-- x0 = w^((p+1)/4), as the candidate computes it (46_codec.md R252). -/
def rootBase (w : Fe2) : Fe2 := emul (epow w ((prime - 3) / 4)) w

theorem esqrt_eq (w : Fe2) :
    esqrt w =
      if emul (econj (rootAlpha w)) (rootAlpha w) = eneg eone then none
      else if rootAlpha w = eneg eone then some (emul ⟨0, 1⟩ (rootBase w))
      else some (emul (epow (eadd eone (rootAlpha w)) ((prime - 1) / 2)) (rootBase w)) := rfl

theorem val_rootAlpha (w : Fe2) : (rootAlpha w).val = w.val ^ ((prime - 1) / 2) := by
  rw [rootAlpha, val_emul, val_emul, val_epow w (by decide), show (prime - 1) / 2 = (prime - 3) / 4 * 2 + 1 by decide,
    pow_succ, pow_mul]
  ring

theorem val_rootBase_sq (w : Fe2) : (rootBase w).val ^ 2 = (rootAlpha w).val * w.val := by
  rw [rootBase, rootAlpha, val_emul, val_emul, val_emul]
  ring

theorem rootAlpha_canonical (w : Fe2) : Fe2Canonical (rootAlpha w) := emul_canonical _ _

theorem rootAlpha_eq_neg_one_iff (w : Fe2) : rootAlpha w = eneg eone ↔ (rootAlpha w).val = -1 := by
  rw [← val_inj (rootAlpha_canonical w) (eneg_canonical _), val_eneg, val_eone]

/-- The candidate's test for a square. -/
theorem esqrt_test_iff (w : Fe2) :
    emul (econj (rootAlpha w)) (rootAlpha w) = eneg eone ↔ QuadraticAlgebra.norm (w.val ^ ((prime - 1) / 2)) = -1 := by
  rw [← val_inj (emul_canonical _ _) (eneg_canonical _), val_emul, val_econj, val_eneg, val_eone,
    star_mul_self_eq_neg_one_iff, val_rootAlpha]

theorem val_i : (⟨0, 1⟩ : Fe2).val = QuadraticAlgebra.omega :=
  QuadraticAlgebra.ext Nat.cast_zero Nat.cast_one

/-- What the candidate answers is a root (46_codec.md R252). -/
theorem esqrt_sq {w r : Fe2} (hw : w.val ≠ 0) (h : esqrt w = some r) : r.val ^ 2 = w.val := by
  rw [esqrt_eq] at h
  split at h
  case isTrue => cases h
  case isFalse hsquare =>
    have hnorm := (norm_pow_half hw).resolve_right (mt (esqrt_test_iff w).2 hsquare)
    rw [← val_rootAlpha] at hnorm
    have hbase := val_rootBase_sq w
    split at h
    case isTrue halpha =>
      cases h
      rw [(rootAlpha_eq_neg_one_iff w).1 halpha] at hbase
      rw [val_emul, val_i, mul_pow, hbase, sq, GFp2_omega_mul_omega]
      ring
    case isFalse halpha =>
      cases h
      have hinv := one_add_pow_half_sq_mul hnorm (mt (rootAlpha_eq_neg_one_iff w).2 halpha)
      rw [val_emul, val_epow _ (by decide), val_eadd, val_eone, mul_pow, hbase]
      linear_combination w.val * hinv

/-- The candidate finds a root of every square (46_codec.md R252). -/
theorem exists_esqrt_of_sq {w : Fe2} {z : GFp2} (hz : z ≠ 0) (h : z ^ 2 = w.val) : ∃ r, esqrt w = some r := by
  have : Fact (2 < prime) := ⟨by decide⟩
  have hsquare : QuadraticAlgebra.norm (w.val ^ ((prime - 1) / 2)) ≠ -1 := by
    rw [← h, norm_sq_pow_half hz]
    exact (ZMod.neg_one_ne_one (n := prime)).symm
  rw [esqrt_eq, if_neg (mt (esqrt_test_iff w).1 hsquare)]
  split
  · exact ⟨_, rfl⟩
  · exact ⟨_, rfl⟩

/-! The sign. -/

/-- p - a is the complement of the 127 bits of a (46_codec.md R251). -/
theorem fneg_msb {a : Fe} (ha : FeCanonical a) (hne : a ≠ 0) : (fneg a).msb = !a.msb := by
  have hneg : (fneg a).toNat = 2 ^ 127 - 1 - a.toNat := (fneg_toNat_eq_ite a).trans (if_neg hne)
  have hpos : a.toNat ≠ 0 := fun h => hne (BitVec.eq_of_toNat_eq h)
  have hlt : a.toNat < 2 ^ 127 - 1 := ha
  rw [BitVec.msb_eq_decide, BitVec.msb_eq_decide, ← decide_not, decide_eq_decide, hneg]
  omega

theorem fneg_zero : fneg 0 = 0 := by decide

/-- XSIGN separates the two roots (00_scope.md R13, 46_codec.md R251). -/
theorem xsign_eneg {x : Fe2} (hx : Fe2Canonical x) (hne : x ≠ ezero) : xsign (eneg x) = !xsign x := by
  rw [xsign, xsign, eneg]
  by_cases hre : x.re = 0
  case pos =>
    have him : x.im ≠ 0 := fun h => hne (congrArg₂ Fe2.mk hre h)
    simp only [hre, fneg_zero, ne_eq, not_true_eq_false, if_false]
    exact fneg_msb hx.2 him
  case neg =>
    have hneg : fneg x.re ≠ 0 := fun h => hre (by rw [← fneg_fneg hx.1, h, fneg_zero])
    simp only [hre, hneg, ne_eq, not_false_eq_true, if_true]
    exact fneg_msb hx.1 hre

theorem xsign_ezero : xsign ezero = false := by decide

/-- Roots of one square are equal or opposite, and the sign tells which. -/
theorem eq_of_sq_of_xsign {x r : Fe2} (hx : Fe2Canonical x) (hr : Fe2Canonical r) (h : x.val ^ 2 = r.val ^ 2)
    (hsign : xsign x = xsign r) : x = r := by
  have := GFp2_isDomain
  rcases sq_eq_sq_iff_eq_or_eq_neg.1 h with heq | hopp
  · exact (val_inj hx hr).1 heq
  · have hxr : x = eneg r := (val_inj hx (eneg_canonical r)).1 (hopp.trans (val_eneg r).symm)
    by_cases hzero : r = ezero
    · rw [hxr, hzero]
      decide
    · rw [hxr, xsign_eneg hr hzero] at hsign
      exact absurd hsign (Bool.not_ne_self _)

theorem rootWithSign_ezero (sign : Bool) : rootWithSign ezero sign = if sign then none else some ezero :=
  if_pos rfl

theorem rootWithSign_of_ne {w : Fe2} (hne : w ≠ ezero) (sign : Bool) :
    rootWithSign w sign = (esqrt w).map fun r => if xsign r = sign then r else eneg r :=
  if_neg hne

/-- Of a root r other than 0, r or -r has the wanted sign. -/
theorem signedRoot_sq_xsign {r : Fe2} (hr : Fe2Canonical r) (hne : r ≠ ezero) (sign : Bool) :
    (if xsign r = sign then r else eneg r).val ^ 2 = r.val ^ 2
      ∧ xsign (if xsign r = sign then r else eneg r) = sign := by
  split
  case isTrue h => exact ⟨rfl, h⟩
  case isFalse h =>
    rw [val_eneg, neg_sq, xsign_eneg hr hne]
    exact ⟨rfl, Bool.not_eq.2 h⟩

/-- What rootWithSign answers is a root with the wanted sign (46_codec.md R254). -/
theorem rootWithSign_sound {w x : Fe2} {sign : Bool} (hw : Fe2Canonical w) (h : rootWithSign w sign = some x) :
    x.val ^ 2 = w.val ∧ xsign x = sign := by
  by_cases hzero : w = ezero
  · subst hzero
    rw [rootWithSign_ezero] at h
    cases sign with
    | true => cases h
    | false =>
      cases h
      rw [val_ezero]
      exact ⟨zero_pow two_ne_zero, xsign_ezero⟩
  · rw [rootWithSign_of_ne hzero] at h
    obtain ⟨r, hr, rfl⟩ := Option.map_eq_some_iff.1 h
    have hwval : w.val ≠ 0 := mt (val_eq_zero_iff hw).1 hzero
    have hsq := esqrt_sq hwval hr
    have hne : r ≠ ezero := by
      rintro rfl
      rw [val_ezero, zero_pow two_ne_zero] at hsq
      exact hwval hsq.symm
    obtain ⟨hval, hsign⟩ := signedRoot_sq_xsign (esqrt_canonical hr) hne sign
    exact ⟨hval.trans hsq, hsign⟩

/-- A root with the wanted sign is enough for rootWithSign to answer one; the root 0 has the sign 0. -/
theorem exists_rootWithSign {w x : Fe2} {sign : Bool} (hw : Fe2Canonical w) (hx : Fe2Canonical x)
    (hsq : x.val ^ 2 = w.val) (hsign : xsign x = sign) : ∃ r, rootWithSign w sign = some r := by
  have := GFp2_isDomain
  by_cases hzero : x = ezero
  · have hwzero : w = ezero := by
      rw [← val_eq_zero_iff hw, ← hsq, hzero, val_ezero, zero_pow two_ne_zero]
    rw [hzero, xsign_ezero] at hsign
    subst hwzero hsign
    exact ⟨ezero, rootWithSign_ezero false⟩
  · have hxval : x.val ≠ 0 := mt (val_eq_zero_iff hx).1 hzero
    have hwne : w ≠ ezero := by
      rintro rfl
      rw [val_ezero] at hsq
      exact pow_ne_zero 2 hxval hsq
    obtain ⟨r, hr⟩ := exists_esqrt_of_sq hxval hsq
    exact ⟨_, by rw [rootWithSign_of_ne hwne, hr, Option.map_some]⟩

/-- rootWithSign finds the root with the wanted sign, whenever there is one (46_codec.md R252, R254). -/
theorem rootWithSign_eq_some_iff {w : Fe2} (hw : Fe2Canonical w) {sign : Bool} {x : Fe2} :
    rootWithSign w sign = some x ↔ Fe2Canonical x ∧ x.val ^ 2 = w.val ∧ xsign x = sign := by
  have := GFp2_isDomain
  constructor
  · intro h
    obtain ⟨hsq, hsign⟩ := rootWithSign_sound hw h
    exact ⟨rootWithSign_canonical h, hsq, hsign⟩
  · rintro ⟨hx, hsq, hsign⟩
    obtain ⟨r, hr⟩ := exists_rootWithSign hw hx hsq hsign
    obtain ⟨hrsq, hrsign⟩ := rootWithSign_sound hw hr
    rw [hr, eq_of_sq_of_xsign hx (rootWithSign_canonical hr) (hsq.trans hrsq.symm) (hsign.trans hrsign.symm)]

end Sys2Proof.Machine
end

section
/-! The codec's commands (46_codec.md R250 to R255). -/

namespace Sys2Proof.Machine

open Sys2Proof.Config (prime)

/-! Decompression: the x that a y and a sign determine. -/

/-- w = (y^2 - 1) / (d*y^2 + 1), which is x^2 on the curve (46_codec.md R254). -/
def xSquared (y : Fe2) : Fe2 := emul (esub (esq y) eone) (einv (eadd (emul curveD (esq y)) eone))

/-- d*y^2 = -1 = i^2 would make CURVE_D a square (46_codec.md R254 (b)). -/
theorem decompress_denominator_ne_ezero (y : Fe2) : eadd (emul curveD (esq y)) eone ≠ ezero := by
  have := GFp2_isDomain
  intro h
  have hval : curveD.val * y.val ^ 2 + 1 = 0 := by
    rw [← val_eq_zero_iff (eadd_canonical _ _)] at h
    simpa only [val_eadd, val_emul, val_esq, val_eone] using h
  have hsq : curveD.val * y.val ^ 2 = QuadraticAlgebra.omega ^ 2 := by
    rw [sq QuadraticAlgebra.omega, GFp2_omega_mul_omega]
    exact eq_neg_of_add_eq_zero_left hval
  rw [curveD_nonsquare hsq, zero_pow two_ne_zero, mul_zero, zero_add] at hval
  exact one_ne_zero hval

theorem decompress_eq (y : Fe2) (sign : Bool) :
    decompress y sign
      = (rootWithSign (xSquared y) sign).bind fun x => if affineOnCurve x y then some (ofAffine x y) else none :=
  if_neg (decompress_denominator_ne_ezero y)

/-- The curve equation, solved for x^2. -/
theorem sq_eq_xSquared_iff (x y : Fe2) : x.val ^ 2 = (xSquared y).val ↔ affineOnCurve x y = true := by
  have := GFp2_isDomain
  have hne := decompress_denominator_ne_ezero y
  have hv : (eadd (emul curveD (esq y)) eone).val ≠ 0 := mt (val_eq_zero_iff (eadd_canonical _ _)).1 hne
  have hw : (xSquared y).val * _ = _ := mul_einv_mul (u := esub (esq y) eone) (eadd_canonical _ _) hne
  rw [← mul_left_inj' hv, hw, affineOnCurve_iff, OnCurve, Edwards.OnCurve]
  simp only [val_eadd, val_esub, val_emul, val_esq, val_eone]
  constructor
  · intro h
    linear_combination -h
  · intro h
    linear_combination -h

/-- PDEC finds the point of the wanted sign over y, whenever the curve has one (46_codec.md R254). -/
theorem decompress_eq_some_iff {y : Fe2} {sign : Bool} {P : Point} :
    decompress y sign = some P
      ↔ ∃ x, Fe2Canonical x ∧ affineOnCurve x y = true ∧ xsign x = sign ∧ P = ofAffine x y := by
  constructor
  · intro h
    obtain ⟨x, hroot, hcurve, hP⟩ := decompress_some h
    obtain ⟨hx, -, hsign⟩ := (rootWithSign_eq_some_iff (emul_canonical _ _)).1 hroot
    exact ⟨x, hx, hcurve, hsign, hP⟩
  · rintro ⟨x, hx, hcurve, hsign, rfl⟩
    have hroot : rootWithSign (xSquared y) sign = some x :=
      (rootWithSign_eq_some_iff (emul_canonical _ _)).2 ⟨hx, (sq_eq_xSquared_iff x y).2 hcurve, hsign⟩
    rw [decompress_eq, hroot, Option.bind_some, if_pos hcurve]

theorem eone_ne_ezero : eone ≠ ezero := by decide

theorem decompress_good {y : Fe2} {sign : Bool} {P : Point} (hy : Fe2Canonical y) (h : decompress y sign = some P) :
    GoodPoint P := by
  obtain ⟨x, hx, hcurve, -, rfl⟩ := decompress_eq_some_iff.1 h
  exact (ofAffine_good_iff hx hy).2 hcurve

theorem affine_ofAffine {x y : Fe2} (hx : Fe2Canonical x) (hy : Fe2Canonical y) :
    affineX (ofAffine x y) = x ∧ affineY (ofAffine x y) = y := by
  have hone : (ofAffine x y).Z.val = 1 := val_eone
  obtain ⟨ex, ey⟩ := affine_unique (P := ofAffine x y) eone_canonical eone_ne_ezero
    (by rw [hone, mul_one]; rfl : x.val * (ofAffine x y).Z.val = (ofAffine x y).X.val)
    (by rw [hone, mul_one]; rfl : y.val * (ofAffine x y).Z.val = (ofAffine x y).Y.val)
  exact ⟨(val_inj (emul_canonical _ _) hx).1 ex, (val_inj (emul_canonical _ _) hy).1 ey⟩

/-! The 32 bytes. -/

/-- BUF[0..31] holds y and a sign (20_memory.md R62, 46_codec.md R250). -/
structure HoldsEncoding (s : State) (y : Fe2) (sign : Bool) : Prop where
  length : s.blen = 32
  canonical : Fe2Canonical y
  re : s.getString 0 16 = y.re.toNat
  im : s.getString 16 16 = y.im.toNat + 2 ^ 127 * sign.toNat

theorem toNat_signBit (s : State) : (Memory.read s.buf 31).msb.toNat = s.getString 16 16 / 2 ^ 127 := by
  have hsplit : s.getString 16 16 = Memory.readLE s.buf 16 15 + 256 ^ 15 * Memory.readLE s.buf 31 1 :=
    Memory.readLE_add s.buf 16 15 1
  have hlow := Memory.readLE_lt s.buf 16 15
  have hbyte := (Memory.read s.buf 31).isLt
  have htop : Memory.readLE s.buf 31 1 = (Memory.read s.buf 31).toNat := rfl
  rw [BitVec.msb_eq_decide, hsplit, htop]
  by_cases h : 2 ^ (8 - 1) ≤ (Memory.read s.buf 31).toNat
  · rw [decide_eq_true h, Bool.toNat_true]
    omega
  · rw [decide_eq_false h, Bool.toNat_false]
    omega

theorem toNat_bool_inj {b c : Bool} (h : b.toNat = c.toNat) : b = c := by
  revert h
  cases b <;> cases c <;> decide

theorem HoldsEncoding.signBit {s : State} {y : Fe2} {sign : Bool} (h : HoldsEncoding s y sign) :
    (Memory.read s.buf 31).msb = sign := by
  refine toNat_bool_inj ?_
  have him := y.im.isLt
  rw [toNat_signBit, h.im]
  omega

/-- The bytes of a canonical y, the sign being the top bit. -/
theorem holdsEncoding_of_parts {s : State} {y : Fe2} (hlen : s.blen = 32) (hy : Fe2Canonical y)
    (hre : s.getString 0 16 = y.re.toNat) (him : s.getString 16 16 % 2 ^ 127 = y.im.toNat) :
    HoldsEncoding s y (Memory.read s.buf 31).msb := by
  refine ⟨hlen, hy, hre, ?_⟩
  rw [toNat_signBit, ← him]
  exact (Nat.mod_add_div _ _).symm

theorem State.getString_halves (s : State) : s.getString 0 32 = s.getString 0 16 + 256 ^ 16 * s.getString 16 16 :=
  Memory.readLE_add s.buf 0 16 16

theorem State.getString_lt (s : State) (off n : Nat) : s.getString off n < 256 ^ n :=
  Memory.readLE_lt s.buf off n

/-- A string that is the number of an encoded point (46_codec.md R250). -/
theorem holdsEncoding_of_encodedPoint {s : State} {x y : Fe2} (hlen : s.blen = 32) (hy : Fe2Canonical y)
    (h : s.getString 0 32 = encodedPoint x y) : HoldsEncoding s y (xsign x) := by
  have hlow := s.getString_lt 0 16
  have hre := y.re.isLt
  rw [s.getString_halves, encodedPoint] at h
  refine ⟨hlen, hy, ?_, ?_⟩ <;> omega

theorem HoldsEncoding.getString {s : State} {x y : Fe2} (h : HoldsEncoding s y (xsign x)) :
    s.getString 0 32 = encodedPoint x y := by
  rw [s.getString_halves, h.re, h.im, encodedPoint]
  omega

/-- The two halves of an encoded point's number. -/
theorem encodedPoint_halves (x y : Fe2) :
    encodedPoint x y / 256 ^ 0 % 256 ^ 16 = y.re.toNat
      ∧ encodedPoint x y / 256 ^ 16 % 256 ^ 16 = y.im.toNat + 2 ^ 127 * (xsign x).toNat := by
  have hre := y.re.isLt
  have him := y.im.isLt
  have hsign := Bool.toNat_le (xsign x)
  rw [encodedPoint]
  omega

/-! The commands, by their outcome. -/

theorem exec_penc_zero {a : PReg} {s : State} (hZ : (s.rdP a).Z = ezero) :
    exec (.penc a) s = fail (.penc a) .zeroInversion s := by
  rw [exec, execPenc, if_pos hZ]

theorem exec_pdec_length (d : PReg) {s : State} (h : s.blen.toNat ≠ 32) :
    exec (.pdec d) s = fail (.pdec d) .invalidEncodingLength s := by
  rw [exec, execPdec, if_pos ((s.lengthIs_eq_false_iff 32).2 h)]

theorem exec_pdec_noncanonical (d : PReg) {s : State} (h : s.blen.toNat = 32)
    (hp : prime ≤ s.getString 0 16 ∨ prime ≤ s.getString 16 16 % 2 ^ 127) :
    exec (.pdec d) s = fail (.pdec d) .invalidFieldEncoding s := by
  rw [exec, execPdec, if_neg (mt (s.lengthIs_eq_false_iff 32).1 (not_not_intro h)), if_pos hp]

section

variable {s : State} {y : Fe2} {sign : Bool}

/-- PDEC of a canonical y and a sign hangs on the decompression alone. -/
theorem HoldsEncoding.exec_pdec (h : HoldsEncoding s y sign) (d : PReg) :
    exec (.pdec d) s
      = (decompress y sign).elim (fail (.pdec d) .pointNotOnCurve s) fun P => succeed (s.wrP d P) := by
  have him : s.getString 16 16 % 2 ^ 127 = y.im.toNat := by
    rw [h.im, Nat.add_mul_mod_self_left, Nat.mod_eq_of_lt y.im.isLt]
  have hlen : ¬s.lengthIs 32 = false :=
    mt (s.lengthIs_eq_false_iff 32).1 (not_not_intro (congrArg BitVec.toNat h.length))
  have hcanonical : ¬(prime ≤ y.re.toNat ∨ prime ≤ y.im.toNat) :=
    not_or.2 ⟨Nat.not_le.2 h.canonical.1, Nat.not_le.2 h.canonical.2⟩
  rw [exec, execPdec, if_neg hlen, h.signBit, h.re, him, if_neg hcanonical, BitVec.ofNat_toNat, BitVec.ofNat_toNat,
    BitVec.setWidth_eq, BitVec.setWidth_eq]

theorem HoldsEncoding.exec_pdec_none (h : HoldsEncoding s y sign) (d : PReg) (hP : decompress y sign = none) :
    exec (.pdec d) s = fail (.pdec d) .pointNotOnCurve s := by
  rw [h.exec_pdec, hP, Option.elim_none]

theorem HoldsEncoding.exec_pdec_some (h : HoldsEncoding s y sign) (d : PReg) {P : Point}
    (hP : decompress y sign = some P) : exec (.pdec d) s = succeed (s.wrP d P) := by
  rw [h.exec_pdec, hP, Option.elim_some]

/-- PENC writes back the bytes that PDEC accepted (46_codec.md R255). -/
theorem HoldsEncoding.roundTrip (h : HoldsEncoding s y sign) (d : PReg) {P : Point}
    (hP : decompress y sign = some P) : RoundTrip (.pdec d) (.penc d) s := by
  refine roundTrip_of_putString h.length (h.exec_pdec_some d hP) rfl ?_
  obtain ⟨x, hx, -, rfl, rfl⟩ := decompress_eq_some_iff.1 hP
  have hread : (s.wrP d (ofAffine x y)).complete.rdP d = ofAffine x y := State.rdP_wrP_same s d _
  obtain ⟨ex, ey⟩ := affine_ofAffine hx h.canonical
  rw [exec_penc (by rw [hread]; exact eone_ne_ezero), hread, ex, ey, h.getString]

end

/-- Everything PDEC can do with a string of 32 bytes (46_codec.md R254). -/
theorem exec_pdec_cases (d : PReg) {s : State} (hlen : s.blen = 32) :
    exec (.pdec d) s = .next (raised s (.pdec d) 1) ∨ exec (.pdec d) s = .next (raised s (.pdec d) 2)
      ∨ ∃ y sign P, HoldsEncoding s y sign ∧ decompress y sign = some P := by
  by_cases hp : prime ≤ s.getString 0 16 ∨ prime ≤ s.getString 16 16 % 2 ^ 127
  case pos =>
    exact .inl ((exec_pdec_noncanonical d (congrArg BitVec.toNat hlen) hp).trans (fail_recoverable _ s (by decide)))
  case neg =>
    obtain ⟨hre, him⟩ := not_or.1 hp
    have hre := Nat.lt_of_not_le hre
    have him := Nat.lt_of_not_le him
    have henc := holdsEncoding_of_parts
      (y := ⟨BitVec.ofNat 127 (s.getString 0 16), BitVec.ofNat 127 (s.getString 16 16 % 2 ^ 127)⟩) hlen
      ⟨ofNat_canonical hre, ofNat_canonical him⟩ (toNat_ofNat_lt_prime hre).symm (toNat_ofNat_lt_prime him).symm
    refine .inr ?_
    cases hP : decompress _ (Memory.read s.buf 31).msb with
    | none => exact .inl ((henc.exec_pdec_none d hP).trans (fail_recoverable _ s (by decide)))
    | some P => exact .inr ⟨_, _, P, henc, hP⟩

/-! The statements. -/

/-- Settles O55: PENC is a putString of 32 bytes, and each half is cut out of the number written
(encodedPoint_halves). -/
theorem pointEncoding : Obligations.PointEncoding := by
  intro s a
  refine ⟨packR_operands_toNat (by decide) (by omega), fun hzero => ?zero, fun hne => ?nonzero⟩
  case zero => exact (exec_penc_zero hzero).trans (fail_fatal _ s)
  case nonzero =>
    obtain ⟨hre, him⟩ := encodedPoint_halves (affineX (s.rdP a)) (affineY (s.rdP a))
    obtain ⟨-, hframe⟩ := State.putString_wrote s 32 (encodedPoint (affineX (s.rdP a)) (affineY (s.rdP a)))
    exact ⟨_, (exec_penc hne).trans (succeed_putString s 32 _), (State.memValue_putString s _ (by decide)).trans hre,
      (State.memValue_putString s _ (by decide)).trans him, hframe⟩

/-- Settles O56: the decompression of the bytes of (x, y) has x as an answer (decompress_eq_some_iff). -/
theorem decodingAnEncodedPointGivesIt : Obligations.DecodingAnEncodedPointGivesIt := by
  intro s d x y hx hy hcurve hlen hbytes
  rw [← State.getString_eq] at hbytes
  have hP : decompress y (xsign x) = some (ofAffine x y) := decompress_eq_some_iff.2 ⟨x, hx, hcurve, rfl, rfl⟩
  exact ((holdsEncoding_of_encodedPoint hlen hy hbytes).exec_pdec_some d hP).trans (succeed_wrP s d _)

/-- Settles O57: the length, the components and the decompression, as execPdec's branches stand
(exec_pdec_cases); the decompression fails just when no x fits (decompress_eq_some_iff). -/
theorem decodedPointsAreValidAndEncodeBack : Obligations.DecodedPointsAreValidAndEncodeBack := by
  intro s d
  refine ⟨packR_operands_toNat (by decide) (by omega), fun hlen => ?length, fun hlen hp => ?noncanonical,
    fun y hlen hy hre him hnone => ?off, fun hlen => ?outcome⟩
  case length =>
    have hlen' : s.blen.toNat ≠ 32 := fun h => hlen (BitVec.eq_of_toNat_eq h)
    exact (exec_pdec_length d hlen').trans (fail_recoverable _ s (by decide))
  case noncanonical =>
    rw [← State.getString_eq, ← State.getString_eq] at hp
    exact (exec_pdec_noncanonical d (congrArg BitVec.toNat hlen) hp).trans (fail_recoverable _ s (by decide))
  case off =>
    rw [← State.getString_eq] at hre him
    have henc := holdsEncoding_of_parts hlen hy hre him
    refine (henc.exec_pdec_none d (Option.eq_none_iff_forall_not_mem.2 fun P hP => ?_)).trans
      (fail_recoverable _ s (by decide))
    obtain ⟨x, hx, hcurve, hsign, -⟩ := decompress_eq_some_iff.1 hP
    refine hnone x hx hcurve ?_
    rw [hsign, toNat_signBit, State.getString_eq]
  case outcome =>
    obtain h | h | ⟨y, sign, P, henc, hP⟩ := exec_pdec_cases d hlen
    · exact ⟨_, h, rfl, .inr (.inl rfl), fun h0 => absurd h0 (by decide : (1 : BitVec 8) ≠ 0)⟩
    · exact ⟨_, h, rfl, .inr (.inr rfl), fun h0 => absurd h0 (by decide : (2 : BitVec 8) ≠ 0)⟩
    · have hexec := henc.exec_pdec_some d hP
      obtain ⟨t, u, ht, hu, hblen, hresult, hbuf⟩ := henc.roundTrip d hP
      obtain rfl := succeed_next.1 (hexec.symm.trans ht)
      refine ⟨_, hexec, rfl, .inl rfl, fun _ => ⟨?_, u, hu, hresult, hblen.trans hlen, fun k _ => hbuf k⟩⟩
      rw [State.complete_p, State.wrP_p, point_set_same]
      exact decompress_good henc.canonical hP

end Sys2Proof.Machine
end

section
/-! The host port while the core is idle, offset by offset (47_system.md R272), and NOP (R270). -/

namespace Sys2Proof.Machine

/-! What a read returns. -/

/-- With BUSY = 0 the number of STATUS is the sum of its seven other bits (10_state.md R36). -/
theorem statusWord_toNat_of_idle {s : State} (hidle : s.running = none) :
    (statusWord s).toNat = 2 * s.flag.toNat + 4 * s.halt.toNat + 8 * s.ovr.toNat + 16 * s.gtv.toNat
      + 32 * s.qv.toNat + 64 * s.dv.toNat + 128 * s.tv.toNat := by
  have hflag := Bool.toNat_le s.flag
  have hhalt := Bool.toNat_le s.halt
  have hovr := Bool.toNat_le s.ovr
  have hgtv := Bool.toNat_le s.gtv
  have hqv := Bool.toNat_le s.qv
  have hdv := Bool.toNat_le s.dv
  have htv := Bool.toNat_le s.tv
  rw [statusWord, State.busy_eq_false hidle, Bool.toNat_false, Nat.zero_add, BitVec.toNat_ofNat]
  exact Nat.mod_eq_of_lt (by omega)

/-- A word of the window is the number of its four bytes (20_memory.md R68). -/
theorem bufWord_toNat (s : State) (off : Nat) : (bufWord s off).toNat = memValue s.buf off 4 := by
  have hlt : Memory.readLE s.buf off 4 < 2 ^ 32 := Memory.readLE_lt s.buf off 4
  rw [bufWord, BitVec.toNat_ofNat, Nat.mod_eq_of_lt hlt, Memory.readLE_eq_sum]

/-- The offsets that return 0: CMD, CTRL and the reserved ones (20_memory.md R71). -/
theorem portRead_eq_zero {s : State} {m : Nat} (hm : m < 32) (hstatus : m ≠ 1) (hresult : m ≠ 2) (herrcmd : m ≠ 3)
    (hblen : m ≠ 4) : portRead s (4 * m) = 0 := by
  rw [portRead, if_neg (by omega), if_neg (by omega), if_neg (by omega), if_neg (by omega), if_neg (by omega)]

/-- What the port returns is the table's value, row by row (47_system.md R272). -/
theorem portRead_toNat_of_idle {s : State} (hidle : s.running = none) (m : Nat) :
    (portRead s (4 * m)).toNat = idleReadValue s m := by
  unfold idleReadValue
  split_ifs with hstatus hresult herrcmd hblen hbuf
  · subst hstatus
    exact statusWord_toNat_of_idle hidle
  · subst hresult
    exact BitVec.toNat_setWidth_of_le (show 8 ≤ 32 by decide)
  · subst herrcmd
    rfl
  · subst hblen
    exact BitVec.toNat_setWidth_of_le (show 8 ≤ 32 by decide)
  · obtain ⟨n, rfl⟩ := Nat.exists_eq_add_of_le hbuf
    rw [Nat.mul_add, portRead_window, bufWord_toNat, Nat.add_sub_cancel_left]
  · rw [portRead_eq_zero (Nat.lt_of_not_le hbuf) hstatus hresult herrcmd hblen]
    rfl

/-! What a write does. -/

/-- A write to CMD while HALT = 1 is ignored (60_exceptions.md R286). -/
theorem writeCmd_of_halted {s : State} (w : Word) (hidle : s.running = none) (hhalt : s.halt = true) :
    writeCmd s w = s := by
  rw [writeCmd, State.busy_eq_false hidle, if_neg Bool.false_ne_true, if_pos hhalt]

/-- BLEN keeps bits 7:0 (10_state.md R38). -/
theorem writeBlen_of_idle {s : State} (w : Word) (hidle : s.running = none) :
    writeBlen s w = { s with blen := w.extractLsb' 0 8 } := by
  rw [writeBlen, State.busy_eq_false hidle, if_neg Bool.false_ne_true, BitVec.setWidth_eq_extractLsb' (by decide)]

/-- SRST resets, whatever CLROVR is (10_state.md R39). -/
theorem writeCtrl_of_srst {s : State} {w : Word} (hsrst : w.getLsbD 0 = true) : writeCtrl s w = s.doReset :=
  if_pos hsrst

theorem writeCtrl_of_clrovr {s : State} {w : Word} (hsrst : ¬w.getLsbD 0 = true) (hclrovr : w.getLsbD 1 = true) :
    writeCtrl s w = { s with ovr := false } :=
  (if_neg hsrst).trans (if_pos hclrovr)

theorem writeCtrl_of_neither {s : State} {w : Word} (hsrst : ¬w.getLsbD 0 = true) (hclrovr : ¬w.getLsbD 1 = true) :
    writeCtrl s w = s :=
  (if_neg hsrst).trans (if_neg hclrovr)

/-- The read-only and the reserved offsets ignore a write (20_memory.md R71). -/
theorem hostWrite_ignored (s : State) {m : Nat} (w : Word) (hm : m < 32) (hcmd : m ≠ 0) (hblen : m ≠ 4)
    (hctrl : m ≠ 5) : hostWrite s (4 * m) w = s := by
  rw [hostWrite, if_neg (by omega), if_neg (by omega), if_neg (by omega), if_neg (by omega)]

section

variable {s : State} {w : Word} {o : Bool} {rest : List HostEvent}

theorem step_write_cmd_of_idle (hidle : s.running = none) (hhalt : s.halt = false)
    (hin : s.inbox = ⟨.write 0x00 w, o⟩ :: rest) : step s = .next { s with inbox := rest, running := some w } :=
  (step_write_of_idle hidle hin (by decide) (by decide)).trans
    (congrArg Host.Outcome.next (writeCmd_of_idle w hidle hhalt))

theorem step_write_cmd_of_halted (hidle : s.running = none) (hhalt : s.halt = true)
    (hin : s.inbox = ⟨.write 0x00 w, o⟩ :: rest) : step s = .next { s with inbox := rest } :=
  (step_write_of_idle hidle hin (by decide) (by decide)).trans
    (congrArg Host.Outcome.next (writeCmd_of_halted w hidle hhalt))

theorem step_write_blen (hidle : s.running = none) (hin : s.inbox = ⟨.write 0x10 w, o⟩ :: rest) :
    step s = .next { s with inbox := rest, blen := w.extractLsb' 0 8 } :=
  (step_write_of_idle hidle hin (by decide) (by decide)).trans
    (congrArg Host.Outcome.next (writeBlen_of_idle w hidle))

theorem step_write_ctrl (hidle : s.running = none) (hin : s.inbox = ⟨.write 0x14 w, o⟩ :: rest) :
    step s = .next (writeCtrl { s with inbox := rest } w) :=
  step_write_of_idle hidle hin (by decide) (by decide)

theorem step_write_ignored {m : Nat} (hm : m < 32) (hcmd : m ≠ 0) (hblen : m ≠ 4) (hctrl : m ≠ 5)
    (hidle : s.running = none) (hin : s.inbox = ⟨.write (4 * m) w, o⟩ :: rest) :
    step s = .next { s with inbox := rest } := by
  rw [step_write_of_idle hidle hin (by omega) (by omega), hostWrite_ignored _ w hm hcmd hblen hctrl]

end

/-! NOP. -/

theorem encode_nop : encode .nop = 0x00000000 := rfl

theorem exec_nop (s : State) : exec .nop s = succeed s := rfl

/-! The statements. -/

/-- Settles O12: the step is the port's read (step_read_of_idle), and its rows are the table's
(portRead_toNat_of_idle). -/
theorem hostReadsReturnTheTabledValues : Obligations.HostReadsReturnTheTabledValues := by
  intro s m o rest hidle hm hin
  exact ⟨_, step_read_of_idle hidle hin (by omega) (by omega), portRead_toNat_of_idle hidle m⟩

/-- Settles O13, a lemma for each row of the table. -/
theorem hostWritesHaveTheTabledEffects : Obligations.HostWritesHaveTheTabledEffects := by
  intro s m w o rest hidle hm hin
  split_ifs with hcmd hhalt hblen hctrl hsrst hclrovr
  · subst hcmd
    exact step_write_cmd_of_halted hidle hhalt hin
  · subst hcmd
    exact step_write_cmd_of_idle hidle (Bool.eq_false_of_not_eq_true hhalt) hin
  · subst hblen
    exact step_write_blen hidle hin
  · subst hctrl
    rw [step_write_ctrl hidle hin, writeCtrl_of_srst hsrst, State.doReset]
  · subst hctrl
    rw [step_write_ctrl hidle hin, writeCtrl_of_clrovr hsrst hclrovr]
  · subst hctrl
    rw [step_write_ctrl hidle hin, writeCtrl_of_neither hsrst hclrovr]
  · exact step_write_ignored hm hcmd hblen hctrl hidle hin

/-- Settles O23: NOP succeeds with no effect (exec_nop), and a halted core ignores its word like any other
(step_write_cmd_of_halted). -/
theorem nopOnlyClearsResult : Obligations.NopOnlyClearsResult :=
  ⟨encode_nop, exec_nop, fun _ _ _ hhalt hidle hin => step_write_cmd_of_halted hidle hhalt hin⟩

end Sys2Proof.Machine
end

section
/-! How a command ends (60_exceptions.md R280 to R283), and the halted core (R286). -/

namespace Sys2Proof.Machine

/-! The two ends of a command (R280). -/

/-- Every command raises or succeeds; no step of it stops. -/
theorem exec_ends (i : Instr) (s : State) :
    (∃ c, exec i s = fail i c s) ∨ ∃ w : Effect, exec i s = succeed (s.apply w) := by
  obtain ⟨c, hc⟩ | ⟨w, -, -, hw⟩ := exec_conforms i s
  · exact .inl ⟨c, hc s.flag s.gtv⟩
  · exact .inr ⟨w, hw s.flag s.gtv⟩

theorem State.apply_errcmd (s : State) (w : Effect) : (s.apply w).errcmd = s.errcmd := by
  cases w <;> simp [State.apply]

theorem ErrorCode.one_le_code (c : ErrorCode) : 1 ≤ c.code.toNat := by cases c <;> decide

/-- Code 4 is the fatal error's alone (R281). -/
theorem ErrorCode.code_eq_four_iff (c : ErrorCode) : c.code = 4 ↔ c = .zeroInversion :=
  ⟨fun h => ErrorCode.code_injective (c' := .zeroInversion) h, fun h => congrArg ErrorCode.code h⟩

/-- Settles O15, by the two ends of a command: what RESULT, ERRCMD and HALT hold after each. -/
theorem everyCommandSucceedsOrRaises : Obligations.EveryCommandSucceedsOrRaises := by
  intro i s
  obtain ⟨c, hc⟩ | ⟨w, hw⟩ := exec_ends i s
  · exact ⟨_, hc, rfl, .inr ⟨c.one_le_code, c.code_le_seven, rfl⟩⟩
  · exact ⟨_, hw, rfl, .inl ⟨rfl, s.apply_errcmd w, s.apply_halt w⟩⟩

/-- Settles O16: a result other than 0 is an error's, and an error is taken by State.raise alone, whose HALT rule is
read off RESULT (ErrorCode.code_eq_four_iff). -/
theorem failedCommandHasNoPartialEffect : Obligations.FailedCommandHasNoPartialEffect := by
  intro i s t h hne
  obtain ⟨c, rfl⟩ | ⟨w, -, -, rfl⟩ := exec_cases h
  · simp only [State.raise, c.code_eq_four_iff]
  · exact absurd (State.complete_result _) hne

/-! The codes of each command (R282). -/

/-- The next state of an outcome, if it has one, holds RESULT = 0 or one of these codes. -/
def ResultIn (codes : List Nat) (o : Host.Outcome State Fault Refusal) : Prop :=
  ∀ t, o = .next t → t.result.toNat = 0 ∨ t.result.toNat ∈ codes

namespace ResultIn

variable {codes : List Nat}

theorem succeed (s : State) : ResultIn codes (succeed s) := by
  intro t h
  rw [succeed_next.1 h]
  exact .inl rfl

theorem fail {i : Instr} {c : ErrorCode} {s : State} (hc : c.code.toNat ∈ codes) : ResultIn codes (fail i c s) := by
  intro t h
  rw [fail_next.1 h]
  exact .inr hc

theorem ite {B : Prop} [Decidable B] {o o' : Host.Outcome State Fault Refusal} (h : ResultIn codes o)
    (h' : ResultIn codes o') : ResultIn codes (if B then o else o') := by
  split
  · exact h
  · exact h'

theorem elim {α : Type} (v : Option α) {o : Host.Outcome State Fault Refusal}
    {f : α → Host.Outcome State Fault Refusal} (h : ResultIn codes o) (hf : ∀ a, ResultIn codes (f a)) :
    ResultIn codes (v.elim o f) := by
  cases v with
  | none => exact h
  | some a => exact hf a

/-- A command with one check. -/
theorem check {B : Prop} [Decidable B] {i : Instr} {c : ErrorCode} {s u : State} (hc : c.code.toNat ∈ codes) :
    ResultIn codes (if B then Machine.fail i c s else Machine.succeed u) :=
  .ite (.fail hc) (.succeed u)

end ResultIn

theorem resultIn_trd (d : PReg) {u : BitVec 8} (s : State) (hu : u.toNat ≤ 7) : ResultIn [6] (exec (.trd d u) s) := by
  rw [exec, execTrd, dif_pos (Nat.lt_succ_of_le hu)]
  exact .check (.head _)

theorem resultIn_tsel (d : PReg) {n : BitVec 8} (s : State) (hn : n.toNat ≤ 64) :
    ResultIn [6] (exec (.tsel d n) s) := by
  rw [exec, execTsel, dif_pos (Nat.lt_succ_of_le hn)]
  exact .check (.head _)

/-- Each command's meaning, check by check, against its row of the table. A check that raises the table's first code
is met by .head, a later one by .tail; a command without a row has no check at all. -/
theorem exec_resultIn (i : Instr) (s : State) (hwf : i.wf = true) : ResultIn (codesOf i) (exec i s) := by
  cases i with
  | nop | fadd | fsub | fmul | fsqr | fneg | fisz | feq | ftob | eadd | esub | emul | esqr | eneg | eisz | eeq | etob
  | econj | epack | ere | eim | pid | padd | pdbl | pneg | ponc | peq | eonc | pgen | ktob | decomp =>
    exact .succeed _
  | finv | einv | paffx | paffy | penc | pseta | kfromb | kred | qtob | recode | dtob => exact .check (.head _)
  | ffromb | efromb => exact .ite (.fail (.head _)) (.check (.tail _ (.head _)))
  | pdec =>
    exact .ite (.fail (.head _)) (.ite (.fail (.tail _ (.head _)))
      (.elim _ (.fail (.tail _ (.tail _ (.head _)))) fun _ => .succeed _))
  | pphi | ppsi | tbuild | smul | dsmulg => exact .elim _ (.fail (.head _)) fun _ => .succeed _
  | dsmul => exact .elim _ (.fail (.head _)) fun _ => .elim _ (.fail (.head _)) fun _ => .succeed _
  | trd d u => exact resultIn_trd d s (of_decide_eq_true hwf)
  | tsel d n => exact resultIn_tsel d s (of_decide_eq_true hwf)

/-- Settles O17, by exec_resultIn. -/
theorem commandsRaiseOnlyTheirErrors : Obligations.CommandsRaiseOnlyTheirErrors :=
  fun i s t hwf h => exec_resultIn i s hwf t h

/-! The halted core (R286). -/

/-- Settles O9: a write to CMD is ignored (step_write_cmd_of_halted); every other access is the idle core's, whose
rules (O12, O13, O14) do not look at HALT. -/
theorem haltedCoreIgnoresCommands : Obligations.HaltedCoreIgnoresCommands := by
  intro s o rest hhalt hidle
  refine ⟨fun w hin => ?cmd, fun w hin => ?blen, fun w hin => ?ctrl, fun w m hm hin => ?buf, fun m hm hin => ?read⟩
  case cmd => exact step_write_cmd_of_halted hidle hhalt hin
  case blen => rw [step_write_blen hidle hin, BitVec.setWidth_eq_extractLsb' (by decide)]
  case ctrl => exact hostWritesHaveTheTabledEffects s 5 w o rest hidle (by decide) hin
  case buf =>
    obtain ⟨hwrite, -, -⟩ := bufWindowIsLittleEndian s m w o rest hidle hm
    exact hwrite hin
  case read => exact hostReadsReturnTheTabledValues s m o rest hidle hm hin

end Sys2Proof.Machine
end

section
/-! Reset from every state (70_reset_and_hazards.md R320), and the host port while a command runs (R327, R328). -/

namespace Sys2Proof.Machine

theorem State.busy_eq_true {s : State} {c : Word} (h : s.running = some c) : s.busy = true := by
  rw [State.busy, h, Option.isSome_some]

section

variable {s : State} {o : Bool} {rest : List HostEvent}

/-- The host's next access happens while BUSY = 0, and while BUSY = 1 if it overlaps (R326). -/
theorem step_of_access {x : HostAccess} (hin : s.inbox = ⟨x, o⟩ :: rest) (hnow : s.running = none ∨ o = true) :
    step s = hostAccess x { s with inbox := rest } := by
  obtain hidle | rfl := hnow
  · exact step_of_idle hidle hin
  · obtain hidle | ⟨c, hrun⟩ := Option.eq_none_or_eq_some s.running
    · exact step_of_idle hidle hin
    · rw [step, hrun, hin]

theorem step_read_of_access {addr : Nat} (hin : s.inbox = ⟨.read addr, o⟩ :: rest)
    (hnow : s.running = none ∨ o = true) (hlt : addr < 0x100) (h4 : addr % 4 = 0) :
    step s = .next (hostRead { s with inbox := rest } addr) := by
  rw [step_of_access hin hnow, hostAccess, atOffset_of_port _ hlt h4]

theorem step_write_of_access {addr : Nat} {w : Word} (hin : s.inbox = ⟨.write addr w, o⟩ :: rest)
    (hnow : s.running = none ∨ o = true) (hlt : addr < 0x100) (h4 : addr % 4 = 0) :
    step s = .next (hostWrite { s with inbox := rest } addr w) := by
  rw [step_of_access hin hnow, hostAccess, atOffset_of_port _ hlt h4]

end

/-! What a write does while BUSY = 1. -/

section

variable {s : State} {c : Word}

theorem writeCmd_of_busy (w : Word) (hrun : s.running = some c) : writeCmd s w = { s with ovr := true } := by
  rw [writeCmd, if_pos (State.busy_eq_true hrun)]

theorem writeBlen_of_busy (w : Word) (hrun : s.running = some c) : writeBlen s w = { s with ovr := true } := by
  rw [writeBlen, if_pos (State.busy_eq_true hrun)]

theorem writeBuf_of_busy (off : Nat) (w : Word) (hrun : s.running = some c) :
    writeBuf s off w = { s with ovr := true } := by
  rw [writeBuf, if_pos (State.busy_eq_true hrun)]

/-- CMD, BLEN and the BUF window drop the word and set OVR (R327). -/
theorem hostWrite_dropped {m : Nat} (w : Word) (hrun : s.running = some c) (hm : m = 0 ∨ m = 4 ∨ 32 ≤ m) :
    hostWrite s (4 * m) w = { s with ovr := true } := by
  obtain rfl | rfl | hbuf := hm
  · exact writeCmd_of_busy w hrun
  · exact writeBlen_of_busy w hrun
  · rw [hostWrite, if_neg (by omega), if_neg (by omega), if_neg (by omega), if_pos (by omega),
      writeBuf_of_busy _ w hrun]

/-! What a read returns while BUSY = 1. -/

theorem unstable_iff (m : Nat) : unstable (4 * m) = true ↔ m = 1 ∨ m = 2 ∨ m = 3 ∨ m = 4 ∨ 32 ≤ m := by
  rw [unstable, decide_eq_true_iff]
  omega

theorem hostRead_of_unstable {addr : Nat} (hrun : s.running = some c) (hun : unstable addr = true) :
    hostRead s addr = { s with readData := unspecifiedRead s addr, freeCount := s.freeCount + 1 } := by
  rw [hostRead, State.busy_eq_true hrun, hun]
  rfl

theorem hostRead_of_stable {addr : Nat} (hst : ¬unstable addr = true) :
    hostRead s addr = { s with readData := portRead s addr } := by
  rw [hostRead, if_neg fun h => hst (Bool.and_elim_right h)]

/-- STATUS shows BUSY = 1 (R328). -/
theorem unspecifiedRead_status_busy (s : State) : (unspecifiedRead s 0x04).getLsbD 0 = true := by
  rw [unspecifiedRead, if_pos rfl, BitVec.getLsbD_or]
  exact Bool.or_true _

/-- Every bit but STATUS's bit 0 is the free value's (R328). -/
theorem unspecifiedRead_getLsbD (s : State) {addr j : Nat} (hj : addr = 0x04 → 0 < j) :
    (unspecifiedRead s addr).getLsbD j = (Config.busyRead s.freeCount).getLsbD j := by
  unfold unspecifiedRead
  split_ifs with hstatus
  · have hj0 : j ≠ 0 := Nat.ne_of_gt (hj hstatus)
    simp [BitVec.getLsbD_one, hj0]
  · rfl

end

/-! The statements. -/

/-- Settles O10, offset by offset: the dropped writes (hostWrite_dropped), CTRL's three words, which do not look at
BUSY, and the offsets that ignore a write at any time (hostWrite_ignored). -/
theorem writesWhileBusyAreDropped : Obligations.WritesWhileBusyAreDropped := by
  intro s c w m rest hrun hm hin
  rw [step_write_of_access hin (.inr rfl) (by omega) (by omega)]
  split_ifs with hdrop hctrl hsrst hclrovr
  · exact congrArg Host.Outcome.next (hostWrite_dropped w hrun hdrop)
  · subst hctrl
    exact congrArg Host.Outcome.next (writeCtrl_of_srst hsrst)
  · subst hctrl
    exact congrArg Host.Outcome.next (writeCtrl_of_clrovr hsrst hclrovr)
  · subst hctrl
    exact congrArg Host.Outcome.next (writeCtrl_of_neither hsrst hclrovr)
  · rw [hostWrite_ignored _ w (by omega) (by omega) (by omega) hctrl]

/-- Settles O8: either cause is an access that happens now (step_of_access), and it is doReset. -/
theorem resetActsFromEveryState : Obligations.ResetActsFromEveryState := by
  intro s x o rest hin hnow hcause
  obtain rfl | ⟨w, hsrst, rfl⟩ := hcause
  · exact step_of_access hin hnow
  · rw [step_write_of_access hin hnow (by decide) (by decide)]
    exact congrArg Host.Outcome.next (writeCtrl_of_srst hsrst)

/-- Settles O11: an offset is one of R328's (unstable_iff) and gives the free value, or it reads 0 as with BUSY = 0
(portRead_eq_zero). -/
theorem readsWhileBusyAreUnspecified : Obligations.ReadsWhileBusyAreUnspecified := by
  intro s c m rest hrun hm hin
  rw [step_read_of_access hin (.inr rfl) (by omega) (by omega)]
  refine ⟨fun hfree => ⟨unspecifiedRead s (4 * m), ?free, ?status, ?bits⟩, fun hzero => ?zero⟩
  case free => exact congrArg Host.Outcome.next (hostRead_of_unstable hrun ((unstable_iff m).mpr hfree))
  case status =>
    rintro rfl
    exact unspecifiedRead_status_busy s
  case bits => exact fun j hj => unspecifiedRead_getLsbD s fun h => hj (by omega)
  case zero =>
    have hst : ¬unstable (4 * m) = true := by
      rw [unstable_iff]
      omega
    rw [hostRead_of_stable hst, portRead_eq_zero (by omega) (by omega) (by omega) (by omega) (by omega)]

end Sys2Proof.Machine
end
